-- ==== Sys2Proof/Word.lean ====
section
/-! DEFINITION. The word types of the Retick block (00_scope.md rule R7). -/

namespace Sys2Proof

/-- A 32-bit word: a command word, a host window register, a calibration word (u32 of rule R7). -/
abbrev Word := BitVec 32

/-- One byte of the calibration space (rule R67). -/
abbrev Byte := BitVec 8

end Sys2Proof
end

