-- ==== Sys2Proof/Syntax.lean ====
section
/-! DEFINITION. The nine commands of the Retick block, one constructor per row of the opcode map (30_encoding.md rule
R93). The 32-bit operand of a format P command is not in the word: it stands in ARG0 (rule R94). -/

namespace Sys2Proof

/-- A command as the host writes it in a listing (30_encoding.md rule R99). -/
inductive Instr where
  /-- ADCRESET, format N, 40_adc.md rule R124. -/
  | adcreset
  /-- ADCINIT, format N, 40_adc.md rule R128. -/
  | adcinit
  /-- ADCREAD `channel`, `ref` (true is InternalReference), format A, 40_adc.md rule R133. -/
  | adcread (channel : Nat) (ref : Bool)
  /-- TEMPINIT, format N, 41_temp.md rule R151. -/
  | tempinit
  /-- TEMPRAW, format N, 41_temp.md rule R152. -/
  | tempraw
  /-- TEMPCONV, format P, 41_temp.md rule R157. -/
  | tempconv
  /-- TICKCOMP, format P, 42_tick.md rule R185. -/
  | tickcomp
  /-- TICKRUN, format P, 42_tick.md rule R188. -/
  | tickrun
  /-- TICKTAKE, format N, 42_tick.md rule R195. -/
  | ticktake
  deriving DecidableEq, Repr

end Sys2Proof
end

