-- ==== Sys2Proof/WellFormed.lean ====
section
/-! DEFINITION. Which listings are commands: the one operand range of 30_encoding.md rule R99. -/

namespace Sys2Proof

/-- The channel of ADCREAD is a number of 0..31 (rules R92, R99); no other command has an operand of its own. -/
def Instr.wellFormed : Instr → Bool
  | .adcread channel _ => decide (channel < 32)
  | .adcreset => true
  | .adcinit => true
  | .tempinit => true
  | .tempraw => true
  | .tempconv => true
  | .tickcomp => true
  | .tickrun => true
  | .ticktake => true

end Sys2Proof
end

