-- ==== Sys2Proof/Decode.lean ====
section
/-! DEFINITION. Decoding and encoding of command words (30_encoding.md rules R90 to R96). -/

namespace Sys2Proof

/-- Why a word or a run of bytes is no command (rule R96). -/
inductive DecodeError where
  /-- The low byte is none of the nine opcodes. -/
  | unknownOpcode
  /-- The low byte is an opcode and a bit its format marks zero is 1. -/
  | nonzeroReserved
  /-- Fewer than the four bytes of a command word (rule R90: one length). -/
  | truncated
  deriving DecidableEq, Repr

/-- One row of the opcode map: a word `w` selects it when `w &&& mask = value` (rule R95). -/
structure OpcodeRow where
  mask  : Word
  value : Word
  build : Word → Instr

/-- ADCREAD's `channel` field, bits 12:8 (rule R91). -/
def channelField (w : Word) : BitVec 5 := w.extractLsb' 8 5

/-- ADCREAD's `ref` field, bit 16 (rule R91). -/
def refField (w : Word) : Bool := w.getLsbD 16

/-- The opcode field, bits 7:0 (rule R92). -/
def opcodeField (w : Word) : Byte := w.extractLsb' 0 8

/-- The opcode map (rules R93, R95). -/
def opcodeRows : List OpcodeRow :=
  [ ⟨0xFFFFFFFF, 0x10, fun _ => .adcreset⟩,
    ⟨0xFFFFFFFF, 0x11, fun _ => .adcinit⟩,
    ⟨0xFFFEE0FF, 0x12, fun w => .adcread (channelField w).toNat (refField w)⟩,
    ⟨0xFFFFFFFF, 0x20, fun _ => .tempinit⟩,
    ⟨0xFFFFFFFF, 0x21, fun _ => .tempraw⟩,
    ⟨0xFFFFFFFF, 0x22, fun _ => .tempconv⟩,
    ⟨0xFFFFFFFF, 0x30, fun _ => .tickcomp⟩,
    ⟨0xFFFFFFFF, 0x31, fun _ => .tickrun⟩,
    ⟨0xFFFFFFFF, 0x32, fun _ => .ticktake⟩ ]

/-- The nine opcodes (rule R93). -/
def opcodes : List Byte := [0x10, 0x11, 0x12, 0x20, 0x21, 0x22, 0x30, 0x31, 0x32]

/-- The command a word selects, or why it is illegal (rules R95, R96). -/
def decodeWord (w : Word) : Except DecodeError Instr :=
  match opcodeRows.find? (fun r => w &&& r.mask == r.value) with
  | some r => .ok (r.build w)
  | none => .error (if opcodes.contains (opcodeField w) then .nonzeroReserved else .unknownOpcode)

/-- Four bytes as a word, the byte at the lowest address holding bits 7:0 (20_memory.md rule R67). -/
def wordOfBytes (b0 b1 b2 b3 : Byte) : Word := b3 ++ b2 ++ b1 ++ b0

/-- A word as its four bytes, lowest address first (20_memory.md rule R67). -/
def bytesOfWord (w : Word) : List Byte :=
  [w.extractLsb' 0 8, w.extractLsb' 8 8, w.extractLsb' 16 8, w.extractLsb' 24 8]

/-- The command at the head of a run of bytes, with the rest of the run. Every command is four bytes long (rule R90). -/
def decodeBytes : List Byte → Except DecodeError (Instr × List Byte)
  | b0 :: b1 :: b2 :: b3 :: rest =>
    match decodeWord (wordOfBytes b0 b1 b2 b3) with
    | .ok i => .ok (i, rest)
    | .error e => .error e
  | _ => .error .truncated

/-- The word of a command (rules R91, R93, R99); the word of a well-formed ADCREAD has every zero bit 0. -/
def encode : Instr → Word
  | .adcreset => 0x10
  | .adcinit => 0x11
  | .adcread channel ref =>
      0x12 ||| (BitVec.ofNat 32 channel <<< 8) ||| (if ref then 0x10000 else 0)
  | .tempinit => 0x20
  | .tempraw => 0x21
  | .tempconv => 0x22
  | .tickcomp => 0x30
  | .tickrun => 0x31
  | .ticktake => 0x32

/-- The word whose low `nbits` bits are those of `w` and whose other bits are 0. -/
def tableWord (nbits w : Nat) : Word := BitVec.ofNat 32 (w % 2 ^ nbits)

/-- The command the decoder reads from the bytes of a table word. -/
def decodeTableWord (nbits w : Nat) : Option Instr :=
  match decodeBytes (bytesOfWord (tableWord nbits w)) with
  | .ok (i, _) => some i
  | .error _ => none

end Sys2Proof
end

