-- ==== Sys2Proof/Config.lean ====
section
/-! DEFINITION. What an implementation fixes (00_scope.md rule R6, 10_state.md rule R41) and the free values. An
`opaque` constant has no body: nothing in Lean can evaluate it, so whatever is proved holds for every value of it. -/

namespace Sys2Proof

/-- CLK_CYCLES_PER_MS, OPEN (rule R6, decision D19): any unsigned 32-bit number. -/
opaque Config.clkCyclesPerMs : Word

/-- The word number of CAL_ADDR: the OPEN base is 4-byte aligned (92_eei_decisions.md section 2), so it is four times a
number nothing fixes. -/
opaque Config.calWordNumber : Nat

/-- CAL_ADDR, OPEN (rule R6, decision D15), 4-byte aligned. -/
def Config.calAddr : Nat := 4 * Config.calWordNumber

/-- The word number of RETICK_BASE, which is 4-byte aligned (92_eei_decisions.md section 2). -/
opaque Config.retickWordNumber : Nat

/-- RETICK_BASE, OPEN (rule R6, decision D2), 4-byte aligned. -/
def Config.retickBase : Nat := 4 * Config.retickWordNumber

/-- The factory contents of the calibration space, byte by byte, applied to the address (20_memory.md rule R65):
programmed at the factory, fixed for the machine, given by no rule. Log entry 7. -/
opaque Config.factoryByte : Nat → Byte

/-- The `draw_1` that SYNCBUSY takes after a `PWrite` (20_memory.md rule R69), applied to the counter of draws that
State holds. A free value, log entry 2. -/
opaque Config.syncDraw : Nat → Bool

/-- The bits RES0 is left with when it "holds no value" after CALERR (10_state.md rule R22). A free value, applied to
the counter of draws, log entry 4. -/
opaque Config.lostWord : Nat → Word

/-- COUNTER_MAX (rule R6): the exclusive bound of the shift search and the saturated top. -/
def Config.counterMax : Nat := 0xFFFFFF

/-- SHIFT_MAX (rule R6). -/
def Config.shiftMax : Nat := 10

/-- SAMPTIME_MAX (rule R6). -/
def Config.samptimeMax : BitVec 6 := 0x3F

/-- ACCUM_1024 (rule R6): accumulate 1024 samples. -/
def Config.accum1024 : BitVec 8 := 0x0A

/-- ADC_CTRLWORD_INIT (rule R6). -/
def Config.ctrlwordInit : BitVec 16 := 0x610

/-- CH_INTERNAL (rule R6): the reserved internal channel. -/
def Config.chInternal : BitVec 5 := 0x18

/-- PRESCALER_DEFAULT (rule R6, decision D22). -/
def Config.prescalerDefault : BitVec 4 := 0

/-- CAL_LAYOUT (rule R6): for each field the lowest of its bits in the 64-bit quantity whose low half is CALW0
(20_memory.md rules R66, R67). The widths are the source's and are fixed in the unpacking. -/
structure CalLayout where
  roomInt  : Nat
  roomFrac : Nat
  hotInt   : Nat
  hotFrac  : Nat
  roomCode : Nat
  hotCode  : Nat
  deriving DecidableEq, Repr

/-- The layout rule R66 fixes (decision D15): CALW0 bits 7:0, 11:8, 19:12, 23:20, CALW1 bits 19:8, 31:20. -/
def Config.calLayout : CalLayout :=
  { roomInt := 0, roomFrac := 8, hotInt := 12, hotFrac := 20, roomCode := 32 + 8, hotCode := 32 + 20 }

end Sys2Proof
end

