-- ==== Sys2Proof/Machine/State.lean ====
section
/-! DEFINITION. Everything the Retick block and its environment hold (10_state.md rules R20 to R41), as plain data, and
the state after reset (rule R40, 70_reset_and_hazards.md rule R260). -/

namespace Sys2Proof.Machine

/-- CUR: the nine opcodes by name (10_state.md rule R29, 30_encoding.md rule R93). -/
inductive Opcode where
  | adcreset | adcinit | adcread | tempinit | tempraw | tempconv | tickcomp | tickrun | ticktake
  deriving DecidableEq, Repr

/-- The values of ADC.GAIN, symbolic (10_state.md rule R35). -/
inductive Gain where
  | x1 | div2
  deriving DecidableEq, Repr

/-- The values of ADC.REFSEL, symbolic (rule R35). -/
inductive RefSel where
  | int1v | halfSupply
  deriving DecidableEq, Repr

/-- The values of ADC.NEGIN, symbolic (rule R35); whether they share a code on the chip is open (log entry 13). -/
inductive NegIn where
  | gndIntRef | gndSupRef
  deriving DecidableEq, Repr

/-- The values of TIMER.MODE (rule R36). -/
inductive TimerMode where
  | countOnMatch | other
  deriving DecidableEq, Repr

/-- The values of IC.PRIO (rule R37). -/
inductive Prio where
  | lowest | other
  deriving DecidableEq, Repr

/-- The two peripherals with a SYNCBUSY bit (20_memory.md rule R68). -/
inductive Periph where
  | adc | timer
  deriving DecidableEq, Repr

/-- ISTEP 1 to 4: h1, the write of h2, the wait of h2, h3 (10_state.md rule R32, 60_exceptions.md rule R226). -/
inductive HandlerStep where
  | clearPending | clearMatch | syncMatch | setTick
  deriving DecidableEq, Repr

/-- A host register: its bits, and the spec's mark `held`, which says whether it "holds a value" (10_state.md rules R21,
R22, R40). Where `held` is false the spec gives the bits no value: after reset they are log entry 3's, after CALERR a free
value (log entry 4). No step of the machine depends on the mark: a read answers the bits whichever way it stands. -/
structure HostReg where
  value : Word
  held  : Bool
  deriving DecidableEq, Repr

/-- ARG0, RES0, RES1 (rules R21, R22). -/
structure HostRegs where
  arg0 : HostReg
  res0 : HostReg
  res1 : HostReg
  deriving DecidableEq, Repr

/-- TickTimerState (rules R24 to R27). -/
structure TickTimer where
  periodMs : Word
  divShift : BitVec 4
  top      : BitVec 24
  armed    : Bool
  started  : Bool
  deriving DecidableEq, Repr

/-- The command sequencer SEQ (rules R29, R30). -/
structure Sequencer where
  busy : Bool
  cur  : Opcode
  step : Nat
  lArg : Word
  lCh  : BitVec 5
  lRef : Bool
  t0   : Word
  t1   : Word
  deriving DecidableEq, Repr

/-- The handler sequencer IRQH (rule R32). -/
structure Handler where
  active : Bool
  istep  : HandlerStep
  deriving DecidableEq, Repr

/-- The ADC peripheral's fields (rules R35, R39). ADC.START is a trigger and holds no value. -/
structure Adc where
  enable     : Bool
  swrst      : Bool
  gain       : Gain
  refsel     : RefSel
  posin      : BitVec 5
  negin      : NegIn
  samptime   : BitVec 6
  accum      : BitVec 8
  ctrlword   : BitVec 16
  ready      : Bool
  result     : BitVec 16
  syncBusy   : Bool
  converting : Bool
  deriving DecidableEq, Repr

/-- The timer/counter peripheral's fields (rule R36). -/
structure Timer where
  enable    : Bool
  prescaler : BitVec 4
  top       : BitVec 24
  count     : BitVec 24
  mode      : TimerMode
  intEn     : Bool
  matchFlag : Bool
  syncBusy  : Bool
  deriving DecidableEq, Repr

/-- The interrupt controller's fields for the timer's line (rule R37). -/
structure IntCtl where
  pending : Bool
  enable  : Bool
  prio    : Prio
  deriving DecidableEq, Repr

/-- The system fields (rule R38). -/
structure SysFields where
  adcBusClk  : Bool
  adcSampClk : Bool
  timerClk   : Bool
  tsensEn    : Bool
  deriving DecidableEq, Repr

/-- One access of the host to its window (20_memory.md rules R61, R76), at an address and of a size in bytes, or its
wait step (60_exceptions.md rule R240). -/
inductive HostAccess where
  | read (addr size : Nat)
  | write (addr size : Nat) (value : Word)
  | wait
  deriving DecidableEq, Repr

/-- The values the environment draws when the ADC completes a peripheral reset (20_memory.md rule R70): SYNCBUSY and
every field the reset leaves unspecified. -/
structure AdcResetDraw where
  syncBusy : Bool
  gain     : Gain
  refsel   : RefSel
  posin    : BitVec 5
  negin    : NegIn
  samptime : BitVec 6
  accum    : BitVec 8
  ctrlword : BitVec 16
  result   : BitVec 16
  deriving DecidableEq, Repr

/-- The steps of the environment, each with what it draws (20_memory.md rules R69, R70, R72, 60_exceptions.md rule
R232). -/
inductive EnvStep where
  /-- ENV-SYNC: a busy bit may fall. -/
  | syncClear (p : Periph)
  /-- ENV-ADCRESET. -/
  | adcReset (draw : AdcResetDraw)
  /-- ENV-CONV with its `draw_16`. -/
  | adcConv (sample : BitVec 16)
  /-- ENV-TICK: one divided tick. -/
  | timerTick
  deriving DecidableEq, Repr

/-- Whose turn it is (00_scope.md rules R9, R10). The schedule and the draws are no law of the block (10_state.md rule
R41): they stand in State as plain data, so that a statement about every state is one about every schedule and draw.
Log entry 1. -/
inductive Turn where
  /-- The block's own sequencers: IRQH while a run is active, else SEQ. -/
  | block
  /-- HOST. -/
  | host (a : HostAccess)
  /-- The host's wait step ends (any wake, 60_exceptions.md rules R240, R242). -/
  | wake
  /-- A handler run starts, if one can (60_exceptions.md rule R225). -/
  | irqStart
  /-- ENV. -/
  | env (e : EnvStep)
  /-- The system reset (70_reset_and_hazards.md rule R260). -/
  | reset
  deriving DecidableEq, Repr

/-- The model's own fields: the turns still to come, the counter free values are applied to, and what the model holds
of the host (log entries 1, 2, 11). -/
structure World where
  sched       : List Turn
  draws       : Nat
  hostWaiting : Bool
  hostRd      : Word
  deriving DecidableEq, Repr

/-- The whole state (10_state.md rule R20 and sections 4, 5). `mem` is the calibration space, keyed by the address
(log entry 7). -/
structure State where
  regs     : HostRegs
  tick     : TickTimer
  tickPend : Bool
  cmdErr   : Bool
  calErr   : Bool
  seq      : Sequencer
  irq      : Handler
  adc      : Adc
  timer    : Timer
  ic       : IntCtl
  sys      : SysFields
  mem      : List Host.Cell
  world    : World
  deriving DecidableEq, Repr

/-- Why a step has no next state though the spec's machine is never there. -/
inductive Fault where
  /-- STEP is no index of the step table of the command in progress. Raised by `State.microStep`; safe: no step of
  the machine leads to such a state (10_state.md rule R29), and a proof gets nothing from it. -/
  | stepOutsideTable
  deriving DecidableEq, Repr

/-- What the model gives no step (00_scope.md rule R11, "Refused"). -/
inductive Refusal where
  /-- The command has no meaning yet. Raised by `exec` alone; safe. -/
  | notModelled (mnemonic : String)
  /-- A host access that is not 32 bits wide, not aligned, at offset 0x1C or outside the window (20_memory.md rule
  R76). Raised by `State.hostAccess`; safe. -/
  | accessNotAdmitted
  /-- A host access other than a STATUS read or a CMD write while BUSY = 1 (20_memory.md rule R76). Raised by
  `State.hostAccess`; safe. -/
  | accessWhileBusy
  deriving DecidableEq, Repr

/-- A host register right after reset: it "holds no value" (rule R40), and its bits are 0 (log entry 3). -/
def HostReg.empty : HostReg := { value := 0, held := false }

/-- The machine right after reset (rules R40, R260, R261). The values the spec leaves unspecified are those of log
entries 3, 5 and 6. -/
def State.reset : State :=
  { regs := { arg0 := HostReg.empty, res0 := HostReg.empty, res1 := HostReg.empty }
    tick := { periodMs := 0, divShift := 0, top := 0, armed := false, started := false }
    tickPend := false
    cmdErr := false
    calErr := false
    seq := { busy := false, cur := .adcreset, step := 1, lArg := 0, lCh := 0, lRef := false, t0 := 0, t1 := 0 }
    irq := { active := false, istep := .clearPending }
    adc := { enable := false, swrst := false, gain := .x1, refsel := .int1v, posin := 0, negin := .gndIntRef,
             samptime := 0, accum := 0, ctrlword := 0, ready := false, result := 0, syncBusy := false,
             converting := false }
    timer := { enable := false, prescaler := 0, top := 0, count := 0, mode := .other, intEn := false,
               matchFlag := false, syncBusy := false }
    ic := { pending := false, enable := false, prio := .other }
    sys := { adcBusClk := false, adcSampClk := false, timerClk := false, tsensEn := false }
    mem := []
    world := { sched := [], draws := 0, hostWaiting := false, hostRd := 0 } }

end Sys2Proof.Machine
end

