-- ==== Sys2Proof/Machine/Ops.lean ====
section
/-! DEFINITION. The named operations over the state: host registers, calibration memory, the peripheral port, the
sequencer's position, the fault bits, the entry to the interrupt handler and the return from it. -/

namespace Sys2Proof.Machine

/-! ### Host registers (10_state.md rules R21, R22) -/

/-- A register that holds `v`. -/
def HostReg.holding (v : Word) : HostReg := { value := v, held := true }

/-- `RES0 <- v`. -/
def State.setRes0 (v : Word) (s : State) : State := { s with regs := { s.regs with res0 := HostReg.holding v } }

/-- `RES1 <- v`. -/
def State.setRes1 (v : Word) (s : State) : State := { s with regs := { s.regs with res1 := HostReg.holding v } }

/-- `ARG0 <- v`, the host's write. -/
def State.setArg0 (v : Word) (s : State) : State := { s with regs := { s.regs with arg0 := HostReg.holding v } }

/-- RES0 holds no value: its bits are a free value, which a later read answers (rule R22, log entry 4). -/
def State.loseRes0 (s : State) : State :=
  { s with
    regs := { s.regs with res0 := { value := Config.lostWord s.world.draws, held := false } }
    world := { s.world with draws := s.world.draws + 1 } }

/-! ### Calibration space (20_memory.md rules R65, R67, R74) -/

/-- The listed byte at address `a`, if the list names one. -/
def listedByte : List Host.Cell → Nat → Option Byte
  | [], _ => none
  | (b, v) :: rest, a => if b = a then some v else listedByte rest a

/-- The byte the memory gives address `a`: the listed one, else the factory's (log entry 7). -/
def byteAt (m : List Host.Cell) (a : Nat) : Byte :=
  match listedByte m a with
  | some v => v
  | none => Config.factoryByte a

/-- `MemRead(a, 4)`: the word of the four bytes from `a` up, the byte at the lowest address in bits 7:0 (rule R67). -/
def memRead (m : List Host.Cell) (a : Nat) : Word :=
  wordOfBytes (byteAt m a) (byteAt m (a + 1)) (byteAt m (a + 2)) (byteAt m (a + 3))

/-- CALW0, the word at CAL_ADDR (rule R65). -/
def calw0 (m : List Host.Cell) : Word := memRead m Config.calAddr

/-- CALW1, the word at CAL_ADDR + 4 (rule R65). -/
def calw1 (m : List Host.Cell) : Word := memRead m (Config.calAddr + 4)

/-- The end of the calibration space, which is the eight bytes of CALW0 and CALW1. -/
def calEnd : Nat := Config.calAddr + 8

/-- What a read of one byte answers; none outside the space, where nothing exists (rule R65). -/
def readByte (m : List Host.Cell) (a : Nat) : Option Byte :=
  if Config.calAddr ≤ a ∧ a < calEnd then some (byteAt m a) else none

/-- Addresses strictly rising, all at least `lo` and inside the space. -/
def risingFrom : Nat → List Host.Cell → Bool
  | _, [] => true
  | lo, (a, _) :: rest => decide (lo ≤ a) && decide (a < calEnd) && risingFrom (a + 1) rest

/-- The canonical form of the calibration memory: addresses strictly rising inside the space, and no entry equal to
the factory byte an unlisted address reads as. -/
abbrev memWf (m : List Host.Cell) : Prop :=
  risingFrom Config.calAddr m = true ∧ ∀ c ∈ m, c.2 ≠ Config.factoryByte c.1

/-! ### Peripheral port (20_memory.md rules R62, R63, R69, R71, R73) -/

/-- One `PWrite` the block makes: the field and the value (10_state.md rules R35 to R38). `adcReadyClear`,
`matchClear` and `pendingClear` are the source's clear operations. -/
inductive FieldWrite where
  | adcEnable (on : Bool)
  | adcSwrst
  | adcGain (g : Gain)
  | adcRefsel (r : RefSel)
  | adcPosin (ch : BitVec 5)
  | adcNegin (n : NegIn)
  | adcSamptime (t : BitVec 6)
  | adcAccum (a : BitVec 8)
  | adcCtrlword (c : BitVec 16)
  | adcStart
  | adcReadyClear
  | timerEnable (on : Bool)
  | timerPrescaler (p : BitVec 4)
  | timerTop (t : BitVec 24)
  | timerCount (c : BitVec 24)
  | timerMode (m : TimerMode)
  | timerIntEn (on : Bool)
  | matchClear
  | pendingClear
  | icEnable (on : Bool)
  | icPrio (p : Prio)
  | sysAdcBusClk (on : Bool)
  | sysAdcSampClk (on : Bool)
  | sysTimerClk (on : Bool)
  | sysTsensEn (on : Bool)
  deriving DecidableEq, Repr

/-- The peripheral whose SYNCBUSY the write may raise; SYS and IC writes need no wait (rule R38). -/
def FieldWrite.periph : FieldWrite → Option Periph
  | .adcEnable _ | .adcSwrst | .adcGain _ | .adcRefsel _ | .adcPosin _ | .adcNegin _ | .adcSamptime _
  | .adcAccum _ | .adcCtrlword _ | .adcStart | .adcReadyClear => some .adc
  | .timerEnable _ | .timerPrescaler _ | .timerTop _ | .timerCount _ | .timerMode _ | .timerIntEn _
  | .matchClear => some .timer
  | .pendingClear | .icEnable _ | .icPrio _ | .sysAdcBusClk _ | .sysAdcSampClk _ | .sysTimerClk _
  | .sysTsensEn _ => none

/-- The write on the ADC's fields, with its trigger effect: ENABLE <- 0 aborts a conversion (rule R73), START <- 1
begins one on an enabled ADC (rule R71), SWRST <- 1 arms the peripheral reset (rule R70). -/
def Adc.store (a : Adc) : FieldWrite → Adc
  | .adcEnable on => { a with enable := on, converting := a.converting && on }
  | .adcSwrst => { a with swrst := true }
  | .adcGain g => { a with gain := g }
  | .adcRefsel r => { a with refsel := r }
  | .adcPosin ch => { a with posin := ch }
  | .adcNegin n => { a with negin := n }
  | .adcSamptime t => { a with samptime := t }
  | .adcAccum v => { a with accum := v }
  | .adcCtrlword c => { a with ctrlword := c }
  | .adcStart => { a with converting := a.converting || a.enable }
  | .adcReadyClear => { a with ready := false }
  | _ => a

/-- The write on the timer's fields. -/
def Timer.store (t : Timer) : FieldWrite → Timer
  | .timerEnable on => { t with enable := on }
  | .timerPrescaler p => { t with prescaler := p }
  | .timerTop v => { t with top := v }
  | .timerCount c => { t with count := c }
  | .timerMode m => { t with mode := m }
  | .timerIntEn on => { t with intEn := on }
  | .matchClear => { t with matchFlag := false }
  | _ => t

/-- The write on the interrupt controller's fields. -/
def IntCtl.store (c : IntCtl) : FieldWrite → IntCtl
  | .pendingClear => { c with pending := false }
  | .icEnable on => { c with enable := on }
  | .icPrio p => { c with prio := p }
  | _ => c

/-- The write on the system fields. -/
def SysFields.store (f : SysFields) : FieldWrite → SysFields
  | .sysAdcBusClk on => { f with adcBusClk := on }
  | .sysAdcSampClk on => { f with adcSampClk := on }
  | .sysTimerClk on => { f with timerClk := on }
  | .sysTsensEn on => { f with tsensEn := on }
  | _ => f

/-- The written field takes its value at once, whole, with its trigger effect (rule R63). -/
def State.storeField (w : FieldWrite) (s : State) : State :=
  { s with adc := s.adc.store w, timer := s.timer.store w, ic := s.ic.store w, sys := s.sys.store w }

/-- `P.SYNCBUSY`. -/
def State.syncBusy (p : Periph) (s : State) : Bool :=
  match p with
  | .adc => s.adc.syncBusy
  | .timer => s.timer.syncBusy

/-- `P.SYNCBUSY <- b`. -/
def State.setSyncBusy (p : Periph) (b : Bool) (s : State) : State :=
  match p with
  | .adc => { s with adc := { s.adc with syncBusy := b } }
  | .timer => { s with timer := { s.timer with syncBusy := b } }

/-- `P.SYNCBUSY <- draw_1` after a write to `P` (rule R69): the next free value, log entries 2 and 21. -/
def State.drawSync (p : Periph) (s : State) : State :=
  { s.setSyncBusy p (Config.syncDraw s.world.draws) with world := { s.world with draws := s.world.draws + 1 } }

/-- `PWrite`: the store, then the draw of SYNCBUSY where the field is one of the ADC or the timer (rule R63). -/
def State.pwrite (w : FieldWrite) (s : State) : State :=
  match w.periph with
  | some p => (s.storeField w).drawSync p
  | none => s.storeField w

/-! ### The sequencer's position (10_state.md rules R29, R30) -/

/-- A micro-step has completed: STEP <- STEP + 1. -/
def State.advance (s : State) : State := { s with seq := { s.seq with step := s.seq.step + 1 } }

/-- `done`: BUSY <- 0. -/
def State.finish (s : State) : State := { s with seq := { s.seq with busy := false } }

/-- `T0 <- v`. -/
def State.setT0 (v : Word) (s : State) : State := { s with seq := { s.seq with t0 := v } }

/-- `T1 <- v`. -/
def State.setT1 (v : Word) (s : State) : State := { s with seq := { s.seq with t1 := v } }

/-! ### Fault bits (60_exceptions.md rules R220 to R222) -/

/-- `raise CMDERR`: the bit is set and nothing else changes (rule R221). -/
def State.raiseCmdErr (s : State) : State := { s with cmdErr := true }

/-- `raise CALERR`: the bit is set, RES0 holds no value, the command ends (rules R159, R222). -/
def State.raiseCalErr (s : State) : State := { s with calErr := true }.loseRes0.finish

/-! ### The interrupt (60_exceptions.md rules R225, R227) -/

/-- A handler run can start: pending, enabled, none active (rule R225). -/
def State.canEnterHandler (s : State) : Bool := s.ic.pending && s.ic.enable && !s.irq.active

/-- The entry: IRQ_ACTIVE <- 1, ISTEP <- 1; nothing is saved and no mode, mask or stack changes (rule R225). -/
def State.enterHandler (s : State) : State := { s with irq := { active := true, istep := .clearPending } }

/-- The return after h3: IRQ_ACTIVE <- 0; nothing is restored (rule R227). A host that waits is woken, since `.wait`
ends once a handler run completes during it (rule R240, log entry 11). -/
def State.leaveHandler (s : State) : State :=
  { s with irq := { s.irq with active := false }, world := { s.world with hostWaiting := false } }

/-! ### Reset (70_reset_and_hazards.md rule R260) -/

/-- The system reset: every piece of state at its reset value, a command in progress abandoned; the calibration words
survive, and the schedule and the counter of draws are no state of the machine (log entry 14). -/
def State.systemReset (s : State) : State :=
  { State.reset with
    mem := s.mem
    world := { State.reset.world with sched := s.world.sched, draws := s.world.draws } }

end Sys2Proof.Machine
end

