-- ==== Sys2Proof/Machine/Operands.lean ====
section
/-! DEFINITION. Operands: what a command latches at acceptance, the command the latches name, the reference pairing,
and the fields of the calibration words. -/

namespace Sys2Proof.Machine

/-- The opcode of a command by name (30_encoding.md rule R93). -/
def opcodeOf : Instr → Opcode
  | .adcreset => .adcreset
  | .adcinit => .adcinit
  | .adcread _ _ => .adcread
  | .tempinit => .tempinit
  | .tempraw => .tempraw
  | .tempconv => .tempconv
  | .tickcomp => .tickcomp
  | .tickrun => .tickrun
  | .ticktake => .ticktake

/-- The command takes its 32-bit operand from ARG0: format P (30_encoding.md rules R91, R93). -/
def takesArg0 : Instr → Bool
  | .tempconv => true
  | .tickcomp => true
  | .tickrun => true
  | .adcreset => false
  | .adcinit => false
  | .adcread _ _ => false
  | .tempinit => false
  | .tempraw => false
  | .ticktake => false

/-- The operands a command latches (30_encoding.md rule R94): `L_CH`, `L_REF` for ADCREAD, `L_ARG <- ARG0` for format
P; the other latches keep their values (log entry 23). -/
def latchOperands (i : Instr) (arg : Word) (q : Sequencer) : Sequencer :=
  match i with
  | .adcread channel ref => { q with lCh := BitVec.ofNat 5 channel, lRef := ref }
  | .tempconv => { q with lArg := arg }
  | .tickcomp => { q with lArg := arg }
  | .tickrun => { q with lArg := arg }
  | .adcreset => q
  | .adcinit => q
  | .tempinit => q
  | .tempraw => q
  | .ticktake => q

/-- Acceptance of a command (30_encoding.md rule R97 (iii)): CUR, the operands, STEP <- 1, BUSY <- 1. -/
def State.accept (i : Instr) (s : State) : State :=
  { s with seq := { latchOperands i s.regs.arg0.value s.seq with busy := true, cur := opcodeOf i, step := 1 } }

/-- The command in progress, read from CUR and the latches (10_state.md rule R29): what SEQ runs. -/
def State.current (s : State) : Instr :=
  match s.seq.cur with
  | .adcreset => .adcreset
  | .adcinit => .adcinit
  | .adcread => .adcread s.seq.lCh.toNat s.seq.lRef
  | .tempinit => .tempinit
  | .tempraw => .tempraw
  | .tempconv => .tempconv
  | .tickcomp => .tickcomp
  | .tickrun => .tickrun
  | .ticktake => .ticktake

/-- A bit as a 32-bit word (`zext_32`). -/
def wordOfBool (b : Bool) : Word := if b then 1 else 0

/-! ### The reference pairing (40_adc.md rule R121), `ref` true for InternalReference -/

/-- `gain(ref)`. -/
def gainOf (ref : Bool) : Gain := if ref then .x1 else .div2

/-- `refsel(ref)`. -/
def refselOf (ref : Bool) : RefSel := if ref then .int1v else .halfSupply

/-- `negin(ref)`. -/
def neginOf (ref : Bool) : NegIn := if ref then .gndIntRef else .gndSupRef

/-! ### The calibration words (41_temp.md rules R153, R154) -/

/-- The source's CalibrationPair as the interpolation takes it: two temperatures in millidegrees, two codes on the
scale of a raw sample. -/
structure CalibrationPair where
  roomMdeg : Nat
  hotMdeg  : Nat
  roomCode : BitVec 16
  hotCode  : BitVec 16
  deriving DecidableEq, Repr

/-- The millidegrees of a point: `1000*int + 100*frac` (rule R154). -/
def pointMdeg (int : BitVec 8) (frac : BitVec 4) : Nat := 1000 * int.toNat + 100 * frac.toNat

/-- A stored 12-bit code on the raw sample's scale: shifted left by 4 (rule R153). -/
def scaledCode (code : BitVec 12) : BitVec 16 := code ++ 0#4

/-- The six fields of the words `w0` = CALW0 and `w1` = CALW1 under a layout, as a calibration pair (rules R153,
R154). -/
def unpackWith (l : CalLayout) (w0 w1 : Word) : CalibrationPair :=
  let q : BitVec 64 := w1 ++ w0
  { roomMdeg := pointMdeg (q.extractLsb' l.roomInt 8) (q.extractLsb' l.roomFrac 4)
    hotMdeg := pointMdeg (q.extractLsb' l.hotInt 8) (q.extractLsb' l.hotFrac 4)
    roomCode := scaledCode (q.extractLsb' l.roomCode 12)
    hotCode := scaledCode (q.extractLsb' l.hotCode 12) }

/-- The unpacking under the layout of 20_memory.md rule R66. -/
def unpack (w0 w1 : Word) : CalibrationPair := unpackWith Config.calLayout w0 w1

end Sys2Proof.Machine
end

