-- ==== Sys2Proof/Machine/Flags.lean ====
section
/-! DEFINITION. The status views the host reads: STATUS, TPERIOD, TCFG (10_state.md rules R23 to R26), the tick state
of the source (rule R33), and the two fault bits together (60_exceptions.md rule R220). -/

namespace Sys2Proof.Machine

/-- STATUS: BUSY, TICKPEND, ARMED, STARTED, CMDERR, CALERR in bits 0 to 5, the rest 0 (rule R23). -/
def State.statusWord (s : State) : Word :=
  0#26 ++ BitVec.ofBool s.calErr ++ BitVec.ofBool s.cmdErr ++ BitVec.ofBool s.tick.started
    ++ BitVec.ofBool s.tick.armed ++ BitVec.ofBool s.tickPend ++ BitVec.ofBool s.seq.busy

/-- TPERIOD: PERIOD_MS (rule R24). -/
def State.tperiodWord (s : State) : Word := s.tick.periodMs

/-- TCFG: four zeros, DIVSHIFT, TOP (rules R25, R26). -/
def State.tcfgWord (s : State) : Word := 0#4 ++ s.tick.divShift ++ s.tick.top

/-- The tick states the block stores (rule R33): `Dispatching` is a phase of host code and is not stored. -/
inductive TickState where
  | unconfigured | armed
  deriving DecidableEq, Repr

/-- `Unconfigured` is ARMED = 0 (rule R33). -/
def State.tickState (s : State) : TickState := if s.tick.armed then .armed else .unconfigured

/-- A fault bit is set (00_scope.md rule R11). -/
def State.faulted (s : State) : Bool := s.cmdErr || s.calErr

end Sys2Proof.Machine
end

