-- ==== Sys2Proof/Machine/Micro.lean ====
section
/-! DEFINITION. The micro-step: one row of a command's flattened step table (00_scope.md rules R8, R9, 10_state.md rule
R29). -/

namespace Sys2Proof.Machine

/-- One micro-operation of a step table. -/
inductive MicroOp where
  /-- A guarded micro-step whose guard is false: completes at once (rule R29). -/
  | nop
  /-- `PWrite` (20_memory.md rule R63). -/
  | pwrite (w : FieldWrite)
  /-- `SyncWait(P)`, enabled only while P.SYNCBUSY = 0 (20_memory.md rule R68). -/
  | syncWait (p : Periph)
  /-- `Poll(ADC.SWRST = 0 and ADC.SYNCBUSY = 0)` (40_adc.md rule R122, r4). -/
  | pollReset
  /-- `Poll(ADC.READY = 1)` (40_adc.md rule R123, c8). -/
  | pollReady
  /-- `e <- PRead(ADC.ENABLE)` (r1); `e` stands in T0. -/
  | readEnable
  /-- `s <- PRead(ADC.RESULT)` (c9); `s` stands in T0. -/
  | readResult
  /-- `w0 <- MemRead(CAL_ADDR, 4)` into T0 (41_temp.md rule R157, v1). -/
  | loadCalw0
  /-- `w1 <- MemRead(CAL_ADDR + 4, 4)` into T1 (v2). -/
  | loadCalw1
  /-- An internal computation with its state writes, given as the state it leaves. -/
  | compute (t : State)
  deriving DecidableEq, Repr

/-- What a micro-operation does: it completes with a state, or it holds. -/
inductive MicroResult where
  | completes (t : State)
  | holds
  deriving DecidableEq, Repr

/-- A wait step: completes without a change while its condition is true, else holds (rule R9). -/
def waitFor (c : Bool) (s : State) : MicroResult := if c then .completes s else .holds

/-- The effect of a micro-operation on the state. -/
def MicroOp.run (op : MicroOp) (s : State) : MicroResult :=
  match op with
  | .nop => .completes s
  | .pwrite w => .completes (s.pwrite w)
  | .syncWait p => waitFor (!s.syncBusy p) s
  | .pollReset => waitFor (!s.adc.swrst && !s.adc.syncBusy) s
  | .pollReady => waitFor s.adc.ready s
  | .readEnable => .completes (s.setT0 (wordOfBool s.adc.enable))
  | .readResult => .completes (s.setT0 (s.adc.result.setWidth 32))
  | .loadCalw0 => .completes (s.setT0 (calw0 s.mem))
  | .loadCalw1 => .completes (s.setT1 (calw1 s.mem))
  | .compute t => .completes t

/-- The entry of a step table at an index counted from 1. -/
def tableAt (table : List MicroOp) : Nat → Option MicroOp
  | 0 => none
  | k + 1 => table[k]?

/-- One turn of SEQ on a step table: the micro-operation at STEP; STEP <- STEP + 1 when it completes, everything
unchanged while it holds (rule R29). -/
def State.microStep (table : List MicroOp) (s : State) : Host.Outcome State Fault Refusal :=
  match tableAt table s.seq.step with
  | none => .fault .stepOutsideTable
  | some op =>
    match op.run s with
    | .completes t => .next t.advance
    | .holds => .next s

/-- `PWriteS(P.F, v)`: the write, then `SyncWait(P)` (rule R8). -/
def pwriteS (p : Periph) (w : FieldWrite) : List MicroOp := [.pwrite w, .syncWait p]

/-- A row with a guard: its micro-operations where the guard is true, else as many no-ops (rule R29). -/
def guarded (g : Bool) (ops : List MicroOp) : List MicroOp := if g then ops else ops.map fun _ => .nop

end Sys2Proof.Machine
end

