-- ==== Sys2Proof/Machine/AdcUnit.lean ====
section
/-! DEFINITION. The ADC sequencer: ADCRESET, ADCINIT, ADCREAD (40_adc.md). A step table is written for the state it is
read in: a guard and a value taken from a state element are those of that micro-step. -/

namespace Sys2Proof.Machine

/-- `PWriteS` on an ADC field. -/
def adcS (w : FieldWrite) : List MicroOp := pwriteS .adc w

/-- `ADC_RESET_SEQ`, rows r1 to r4 (rule R122): five micro-steps. `e` stands in T0. -/
def adcResetSeq (s : State) : List MicroOp :=
  [.readEnable]
    ++ guarded (s.seq.t0 == 1) (adcS (.adcEnable false))
    ++ [.pwrite .adcSwrst, .pollReset]

/-- `ADC_CONV_SEQ(ch, ref)`, rows c1 to c11 (rule R123): twenty micro-steps. The sample stands in T0. -/
def adcConvSeq (ch : BitVec 5) (ref : Bool) : List MicroOp :=
  adcS (.adcGain (gainOf ref))
    ++ adcS (.adcRefsel (refselOf ref))
    ++ adcS (.adcPosin ch)
    ++ adcS (.adcNegin (neginOf ref))
    ++ adcS (.adcSamptime Config.samptimeMax)
    ++ adcS (.adcEnable true)
    ++ adcS .adcStart
    ++ [.pollReady, .readResult]
    ++ adcS .adcReadyClear
    ++ adcS (.adcEnable false)

/-- Rows i1 to i20 of ADCINIT (rule R128): clocks, reset, configuration, dummy conversion on channel 0x18 with the
internal reference, sample discarded (rules R126, R127). -/
def adcInitSeq (s : State) : List MicroOp :=
  [.pwrite (.sysAdcBusClk true), .pwrite (.sysAdcSampClk true)]
    ++ adcResetSeq s
    ++ adcS (.adcCtrlword Config.ctrlwordInit)
    ++ adcS (.adcAccum Config.accum1024)
    ++ adcS (.adcSamptime Config.samptimeMax)
    ++ adcConvSeq Config.chInternal true

/-- A conversion whose sample is returned: c1 to c11, then `RES0 <- zext_32(s); done` (rule R133). -/
def adcReadTable (ch : BitVec 5) (ref : Bool) (s : State) : List MicroOp :=
  adcConvSeq ch ref ++ [.compute (s.setRes0 s.seq.t0).finish]

/-- ADCRESET (rule R124): `ADC_RESET_SEQ; done`. -/
def execAdcreset (s : State) : Host.Outcome State Fault Refusal :=
  s.microStep (adcResetSeq s ++ [.compute s.finish])

/-- ADCINIT (rule R128). -/
def execAdcinit (s : State) : Host.Outcome State Fault Refusal :=
  s.microStep (adcInitSeq s ++ [.compute s.finish])

/-- ADCREAD `channel`, `ref` (rule R133); every channel of 0..31 is written unchanged (rule R131). -/
def execAdcread (channel : Nat) (ref : Bool) (s : State) : Host.Outcome State Fault Refusal :=
  s.microStep (adcReadTable (BitVec.ofNat 5 channel) ref s)

end Sys2Proof.Machine
end

