-- ==== Sys2Proof/Machine/TempUnit.lean ====
section
/-! DEFINITION. The temperature unit: TEMPINIT, TEMPRAW, TEMPCONV (41_temp.md). -/

namespace Sys2Proof.Machine

/-- The two-point interpolation of rule R155 on a calibration pair with different codes, in exact integers, the product
before the division, the division truncating toward zero (`tdiv`, 00_scope.md rule R7). -/
def interp (c : CalibrationPair) (raw : BitVec 16) : Int :=
  (c.roomMdeg : Int)
    + Int.tdiv (((c.hotMdeg : Int) - c.roomMdeg) * ((raw.toNat : Int) - c.roomCode.toNat))
        ((c.hotCode.toNat : Int) - c.roomCode.toNat)

/-- TEMPCONV's operand: the low half of L_ARG (rule R156). -/
def rawOperand (arg : Word) : BitVec 16 := arg.setWidth 16

/-- Row v3 (rule R157): CALERR where the codes are equal (rule R159), else `RES0 <- m[31:0]; done`. `w0`, `w1` stand in
T0, T1. -/
def convertStep (s : State) : State :=
  let c := unpack s.seq.t0 s.seq.t1
  if c.hotCode = c.roomCode then s.raiseCalErr
  else (s.setRes0 (BitVec.ofInt 32 (interp c (rawOperand s.seq.lArg)))).finish

/-- TEMPINIT (rule R151): the sensor enable, then rows i1 to i20 of ADCINIT, then `done`. -/
def execTempinit (s : State) : Host.Outcome State Fault Refusal :=
  s.microStep ([.pwrite (.sysTsensEn true)] ++ adcInitSeq s ++ [.compute s.finish])

/-- TEMPRAW (rule R152): in every respect ADCREAD 0x18, INT. -/
def execTempraw (s : State) : Host.Outcome State Fault Refusal :=
  s.microStep (adcReadTable Config.chInternal true s)

/-- TEMPCONV (rule R157): rows v1, v2, v3. -/
def execTempconv (s : State) : Host.Outcome State Fault Refusal :=
  s.microStep [.loadCalw0, .loadCalw1, .compute (convertStep s)]

end Sys2Proof.Machine
end

