-- ==== Sys2Proof/Machine/TickUnit.lean ====
section
/-! DEFINITION. The tick unit: TICKCOMP, TICKRUN, TICKTAKE (42_tick.md). -/

namespace Sys2Proof.Machine

/-- `cycles`: the exact unsigned 64-bit product (rule R181). -/
def cyclesOf (cpms periodMs : Word) : BitVec 64 := cpms.setWidth 64 * periodMs.setWidth 64

/-- `(cycles >> s) < 0xFFFFFF`, unsigned and strict (rule R182). -/
def shiftFits (cycles : BitVec 64) (s : Nat) : Bool := decide ((cycles >>> s).toNat < Config.counterMax)

/-- The smallest shift of 0..10 that fits, if one does (rule R182). -/
def leastShift (cycles : BitVec 64) : Option Nat :=
  (List.range (Config.shiftMax + 1)).find? (shiftFits cycles)

/-- `computePeriod` (rule R184) with CLK_CYCLES_PER_MS as an argument: the divider shift and the counter top; `(10,
0xFFFFFF)` where no shift fits (rule R183). -/
def computePeriod (cpms periodMs : Word) : BitVec 4 × BitVec 24 :=
  let cycles := cyclesOf cpms periodMs
  match leastShift cycles with
  | some s => (BitVec.ofNat 4 s, (cycles >>> s).setWidth 24)
  | none => (BitVec.ofNat 4 Config.shiftMax, BitVec.ofNat 24 Config.counterMax)

/-- `PWriteS` on a timer field. -/
def timerS (w : FieldWrite) : List MicroOp := pwriteS .timer w

/-- Row s7: `ARMED <- 1` (rule R187). -/
def State.setArmed (s : State) : State := { s with tick := { s.tick with armed := true } }

/-- Row a2: `computePeriod`, then PERIOD_MS, DIVSHIFT, TOP (rule R190). -/
def State.applyPeriod (periodMs : Word) (s : State) : State :=
  let r := computePeriod Config.clkCyclesPerMs periodMs
  { s with tick := { s.tick with periodMs := periodMs, divShift := r.1, top := r.2 } }

/-- `TICK_SETUP_SEQ`, rows s1 to s7 (rule R187): ten micro-steps. -/
def tickSetupSeq (s : State) : List MicroOp :=
  [.pwrite (.sysTimerClk true)]
    ++ timerS (.timerPrescaler Config.prescalerDefault)
    ++ timerS (.timerMode .countOnMatch)
    ++ timerS (.timerIntEn true)
    ++ [.pwrite (.icPrio .lowest), .pwrite (.icEnable true), .compute s.setArmed]

/-- `TICK_ARM_SEQ(periodMs)`, rows a1 to a6 (rule R190): eleven micro-steps. -/
def tickArmSeq (periodMs : Word) (s : State) : List MicroOp :=
  timerS (.timerEnable false)
    ++ [.compute (s.applyPeriod periodMs)]
    ++ timerS (.timerCount 0)
    ++ timerS (.timerPrescaler s.tick.divShift)
    ++ timerS (.timerTop s.tick.top)
    ++ timerS (.timerEnable true)

/-- Row u3 (rule R188): `first <- (STARTED = 0 ? 1 : 0); STARTED <- 1; RES0 <- zext_32(first); done`. `first` stands in
T0. -/
def returnFirst (s : State) : State :=
  let first := wordOfBool (!s.tick.started)
  (({ s with tick := { s.tick with started := true } }.setT0 first).setRes0 first).finish

/-- TICKCOMP's one micro-step (rule R185): `RES0 <- shift; RES1 <- top; done`. -/
def returnPeriod (s : State) : State :=
  let r := computePeriod Config.clkCyclesPerMs s.seq.lArg
  ((s.setRes0 (r.1.setWidth 32)).setRes1 (r.2.setWidth 32)).finish

/-- TICKTAKE's one micro-step (rule R195): `old <- TICKPEND; TICKPEND <- 0; RES0 <- zext_32(old); done`. -/
def takeTick (s : State) : State :=
  ({ s with tickPend := false }.setRes0 (wordOfBool s.tickPend)).finish

/-- TICKCOMP (rule R185). -/
def execTickcomp (s : State) : Host.Outcome State Fault Refusal :=
  s.microStep [.compute (returnPeriod s)]

/-- TICKRUN (rule R188): the setup if ARMED = 0, the arm sequence, row u3. -/
def execTickrun (s : State) : Host.Outcome State Fault Refusal :=
  s.microStep
    (guarded (!s.tick.armed) (tickSetupSeq s) ++ tickArmSeq s.seq.lArg s ++ [.compute (returnFirst s)])

/-- TICKTAKE (rule R195). -/
def execTicktake (s : State) : Host.Outcome State Fault Refusal :=
  s.microStep [.compute (takeTick s)]

end Sys2Proof.Machine
end

