-- ==== Sys2Proof/Machine/Dispatch.lean ====
section
/-! DEFINITION. The dispatch of SEQ: the micro-step at STEP of the command `i` (10_state.md rule R29). -/

namespace Sys2Proof.Machine

/-- One micro-step of the command sequencer on the command `i`. -/
def exec (i : Instr) (s : State) : Host.Outcome State Fault Refusal :=
  match i with
  | .adcreset => Sys2Proof.Machine.execAdcreset s
  | .adcinit => Sys2Proof.Machine.execAdcinit s
  | .adcread channel ref => Sys2Proof.Machine.execAdcread channel ref s
  | .tempinit => Sys2Proof.Machine.execTempinit s
  | .tempraw => Sys2Proof.Machine.execTempraw s
  | .tempconv => Sys2Proof.Machine.execTempconv s
  | .tickcomp => Sys2Proof.Machine.execTickcomp s
  | .tickrun => Sys2Proof.Machine.execTickrun s
  | .ticktake => Sys2Proof.Machine.execTicktake s

end Sys2Proof.Machine
end

