-- ==== Sys2Proof/Machine/Env.lean ====
section
/-! DEFINITION. The steps of the environment (20_memory.md rules R69, R70, R72, 60_exceptions.md rule R232). A step whose
condition does not hold is passed over. -/

namespace Sys2Proof.Machine

/-- ENV-ADCRESET on an ADC whose reset is armed (rule R70): ENABLE, READY, CONVERTING, SWRST 0, the rest drawn. -/
def Adc.resetWith (d : AdcResetDraw) : Adc :=
  { enable := false, swrst := false, gain := d.gain, refsel := d.refsel, posin := d.posin, negin := d.negin,
    samptime := d.samptime, accum := d.accum, ctrlword := d.ctrlword, ready := false, result := d.result,
    syncBusy := d.syncBusy, converting := false }

/-- ENV-CONV: a conversion in progress on an enabled ADC completes with a drawn sample (rule R72). -/
def Adc.convert (sample : BitVec 16) (a : Adc) : Adc :=
  { a with result := sample, ready := true, converting := false }

/-- The timer counts: enabled, clocked and in the counting mode (rule R232). -/
def State.timerRuns (s : State) : Bool :=
  s.timer.enable && s.sys.timerClk && decide (s.timer.mode = .countOnMatch)

/-- One divided tick (rule R232): at COUNT = TOP the count match, else COUNT + 1 modulo 2^24. -/
def State.divTick (s : State) : State :=
  if s.timer.count = s.timer.top then
    { s with
      timer := { s.timer with count := 0, matchFlag := true }
      ic := { s.ic with pending := s.ic.pending || s.timer.intEn } }
  else { s with timer := { s.timer with count := s.timer.count + 1 } }

/-- One step of the environment. -/
def State.envStep (e : EnvStep) (s : State) : State :=
  match e with
  | .syncClear p => s.setSyncBusy p false
  | .adcReset d => if s.adc.swrst then { s with adc := Adc.resetWith d } else s
  | .adcConv sample =>
    if s.adc.converting && s.adc.enable then { s with adc := s.adc.convert sample } else s
  | .timerTick => if s.timerRuns then s.divTick else s

end Sys2Proof.Machine
end

