-- ==== Sys2Proof/Machine/Interrupt.lean ====
section
/-! DEFINITION. The handler sequencer IRQH (60_exceptions.md rules R225 to R227). -/

namespace Sys2Proof.Machine

/-- A handler run starts if one can (rule R225); else the turn is passed over. -/
def State.tryEnterHandler (s : State) : State := if s.canEnterHandler then s.enterHandler else s

/-- `ISTEP <- h`. -/
def State.setIstep (h : HandlerStep) (s : State) : State := { s with irq := { s.irq with istep := h } }

/-- One micro-step of a handler run (rule R226): h1, the write of h2, the wait of h2 (which holds while TIMER.SYNCBUSY
is 1), h3. -/
def State.handlerStep (s : State) : State :=
  match s.irq.istep with
  | .clearPending => (s.pwrite .pendingClear).setIstep .clearMatch
  | .clearMatch => (s.pwrite .matchClear).setIstep .syncMatch
  | .syncMatch => if s.timer.syncBusy then s else s.setIstep .setTick
  | .setTick => { s with tickPend := true }.leaveHandler

end Sys2Proof.Machine
end

