-- ==== Sys2Proof/Machine/Window.lean ====
section
/-! DEFINITION. The host's side: the register window (20_memory.md rules R61, R74 to R76), acceptance of a command word
(30_encoding.md rule R97), the wait step (60_exceptions.md rule R240). -/

namespace Sys2Proof.Machine

/-- Offsets of the window's registers (rule R61). -/
def offCmd : Nat := 0x00
/-- ARG0. -/
def offArg0 : Nat := 0x04
/-- RES0. -/
def offRes0 : Nat := 0x08
/-- RES1. -/
def offRes1 : Nat := 0x0C
/-- STATUS. -/
def offStatus : Nat := 0x10
/-- TPERIOD. -/
def offTperiod : Nat := 0x14
/-- TCFG. -/
def offTcfg : Nat := 0x18

/-- The window admits aligned 32-bit accesses to its seven registers from RETICK_BASE up (rules R61, R74, R76). -/
def admitted (addr size : Nat) : Bool :=
  decide (size = 4) && decide (addr % 4 = 0) && decide (Config.retickBase ≤ addr)
    && decide (addr ≤ Config.retickBase + offTcfg)

/-- What a read of the register at an offset returns (rule R61). ARG0, RES0 and RES1 return their bits, also while the
spec says they hold no value (log entries 3, 4). -/
def State.windowRead (s : State) (offset : Nat) : Word :=
  if offset = offCmd then 0
  else if offset = offArg0 then s.regs.arg0.value
  else if offset = offRes0 then s.regs.res0.value
  else if offset = offRes1 then s.regs.res1.value
  else if offset = offStatus then s.statusWord
  else if offset = offTperiod then s.tperiodWord
  else s.tcfgWord

/-- A word offered to CMD (30_encoding.md rule R97): dropped with CMDERR while busy or where it is illegal, else
accepted; a format P command takes the bits of ARG0, also while it holds no value (log entry 3). -/
def State.offerCommand (w : Word) (s : State) : State :=
  if s.seq.busy then s.raiseCmdErr
  else
    match decodeWord w with
    | .error _ => s.raiseCmdErr
    | .ok i => s.accept i

/-- The value a host read returned (log entry 11). -/
def State.setHostRd (v : Word) (s : State) : State := { s with world := { s.world with hostRd := v } }

/-- The host enters or leaves its wait step (60_exceptions.md rule R240). -/
def State.setWaiting (b : Bool) (s : State) : State := { s with world := { s.world with hostWaiting := b } }

/-- A host read (rules R61, R75, R76): only STATUS while busy; no side effect on the block. -/
def State.hostRead (addr size : Nat) (s : State) : Host.Outcome State Fault Refusal :=
  if !admitted addr size then .refused .accessNotAdmitted
  else if s.seq.busy && addr != Config.retickBase + offStatus then .refused .accessWhileBusy
  else .next (s.setHostRd (s.windowRead (addr - Config.retickBase)))

/-- A host write (rules R61, R76): CMD offers a command, ARG0 takes the value, the others ignore it. -/
def State.hostWrite (addr size : Nat) (v : Word) (s : State) : Host.Outcome State Fault Refusal :=
  if !admitted addr size then .refused .accessNotAdmitted
  else if addr = Config.retickBase + offCmd then .next (s.offerCommand v)
  else if s.seq.busy then .refused .accessWhileBusy
  else if addr = Config.retickBase + offArg0 then .next (s.setArg0 v)
  else .next s

/-- One access of the host. -/
def State.hostAccess (a : HostAccess) (s : State) : Host.Outcome State Fault Refusal :=
  match a with
  | .read addr size => s.hostRead addr size
  | .write addr size v => s.hostWrite addr size v
  | .wait => .next (s.setWaiting true)

/-- HOST can step: no handler run is active (10_state.md rule R32) and it is not in its wait step (rule R240). -/
def State.hostCanStep (s : State) : Bool := !s.irq.active && !s.world.hostWaiting

/-- The host's turn; passed over where the host cannot step. -/
def State.hostTurn (a : HostAccess) (s : State) : Host.Outcome State Fault Refusal :=
  if s.hostCanStep then s.hostAccess a else .next s

end Sys2Proof.Machine
end

