-- ==== Sys2Proof/Machine/Schedule.lean ====
section
/-! DEFINITION. The turns of the agents (00_scope.md rules R9, R10), and the placing of a command where SEQ takes it. -/

namespace Sys2Proof.Machine

/-- The block's own turn: IRQH while a run is active (then SEQ takes no step, 10_state.md rule R32), else SEQ on the
command in progress, else nothing. -/
def State.blockTurn (s : State) : Host.Outcome State Fault Refusal :=
  if s.irq.active then .next s.handlerStep
  else if s.seq.busy then exec s.current s
  else .next s

/-- One turn. -/
def State.takeTurn (t : Turn) (s : State) : Host.Outcome State Fault Refusal :=
  match t with
  | .block => s.blockTurn
  | .host a => s.hostTurn a
  | .wake => .next (s.setWaiting false)
  | .irqStart => .next s.tryEnterHandler
  | .env e => .next (s.envStep e)
  | .reset => .next s.systemReset

/-- The turns still to come. -/
def State.setSched (ts : List Turn) (s : State) : State := { s with world := { s.world with sched := ts } }

/-- One step of the whole machine: the first turn of the schedule, or the block's own where none is listed. -/
def State.nextStep (s : State) : Host.Outcome State Fault Refusal :=
  match s.world.sched with
  | [] => s.blockTurn
  | t :: rest => (s.setSched rest).takeTurn t

/-- The state in which the host has called the command of a table word (30_encoding.md rule R98): no handler run, no
command in progress, no turn pending, and the word offered to CMD. Log entry 12. -/
def State.placeCommand (s : State) (nbits w : Nat) : State :=
  let idle : State :=
    { s.setSched [] with
      seq := { s.seq with busy := false }
      irq := { s.irq with active := false } }
  match decodeTableWord nbits w with
  | some i => idle.accept i
  | none => idle.raiseCmdErr

end Sys2Proof.Machine
end

