-- ==== Sys2Proof/Machine/Step.lean ====
section
/-! DEFINITION. The step of the machine and the placing of an instruction where it is fetched. -/

namespace Sys2Proof.Machine

/-- One step: one turn of one agent (00_scope.md rules R9, R10). -/
def step (s : State) : Host.Outcome State Fault Refusal := s.nextStep

/-- `s` with the command of a table word accepted, so that the next step is its first micro-step (log entry 12). -/
def State.withFetchWord (s : State) (nbits w : Nat) : State := s.placeCommand nbits w

end Sys2Proof.Machine
end

