-- ==== Sys2Proof/Safety.lean ====
section
/-! DEFINITION. What counts as a good state, a hold, a hang, a run and a liveness premise (00_scope.md rule R11,
20_memory.md rule R82), and the invariants of the machine (10_state.md rule R34 and the rules named at each). -/

namespace Sys2Proof.Safety

open Sys2Proof.Machine

/-! ### Outcomes of a run -/

/-- A good final state: no command and no handler run in progress, so nothing holds, and no fault bit set (00_scope.md
rule R11: a hold is not final, and a state with a fault bit set is never good; log entry 26). DESIGN CHOICE, unsafe: a
state in which the host sits in its `.wait` step is not excluded, although an endless wait is stuck by
93_implementation_defined.md U4; the spec does not say whether such a state is final (log entry 27). -/
def goodFinal (s : State) : Prop := s.seq.busy = false ∧ s.irq.active = false ∧ s.faulted = false

/-- A handler run is in progress and its wait step is not enabled (60_exceptions.md rule R226). -/
def handlerHeld (s : State) : Prop := s.irq.active = true ∧ s.irq.istep = .syncMatch ∧ s.timer.syncBusy = true

/-- A command is in progress and its next micro-step is a wait step that is not enabled, whether or not a handler run is
active (00_scope.md rule R9). -/
def commandStuck (s : State) : Prop := s.seq.busy = true ∧ exec s.current s = .next s

/-- The command's sequencer would take its turn and stays at its wait step. -/
def commandHeld (s : State) : Prop := s.irq.active = false ∧ commandStuck s

/-- The discipline of 10_state.md rule R21: the command takes no operand from ARG0, or ARG0 holds a value the host wrote.
A claim about the result of a command takes it as a premise where it must not rest on log entry 3. -/
def operandHeld (i : Instr) (s : State) : Prop := takesArg0 i = true → s.regs.arg0.held = true

/-- An infinite run under an infinite schedule `τ`: state `n` takes turn `τ n` and leads to state `n + 1`. -/
def isRun (τ : Nat → Turn) (r : Nat → State) : Prop := ∀ n, (r n).takeTurn (τ n) = .next (r (n + 1))

/-- A hang: from some point on one wait step is never enabled (00_scope.md rule R11): the command's, while any number of
handler runs may go by; the handler's; or the host's own, which nothing wakes (60_exceptions.md rules R223, R240,
93_implementation_defined.md U4). -/
def hangs (r : Nat → State) : Prop :=
  ∃ n, (∀ m, n ≤ m → commandStuck (r m)) ∨ (∀ m, n ≤ m → handlerHeld (r m))
    ∨ (∀ m, n ≤ m → (r m).world.hostWaiting = true)

/-! ### The liveness assumptions by name (20_memory.md rule R82); none is built in -/

/-- LIVE_SYNC: a SYNCBUSY bit that is 1 is eventually cleared. DESIGN CHOICE, safe: by whatever makes it 0 (log entry
28). -/
def liveSync (r : Nat → State) : Prop :=
  ∀ p n, (r n).syncBusy p = true → ∃ m, n ≤ m ∧ (r m).syncBusy p = false

/-- LIVE_RESET: an armed ADC reset eventually completes. DESIGN CHOICE, safe: a system reset that disarms it discharges the
premise too (log entry 28). -/
def liveReset (r : Nat → State) : Prop :=
  ∀ n, (r n).adc.swrst = true → ∃ m, n ≤ m ∧ (r m).adc.swrst = false

/-- LIVE_CONV: a started conversion on an enabled ADC eventually completes. DESIGN CHOICE, safe: the premise asks only that
CONVERTING is 0 at some later state, so an abort (ENABLE <- 0), a peripheral reset and a system reset discharge it too,
where the rule says no more than "completes" (log entry 28). -/
def liveConv (r : Nat → State) : Prop :=
  ∀ n, (r n).adc.converting = true → (r n).adc.enable = true → ∃ m, n ≤ m ∧ (r m).adc.converting = false

/-- LIVE_TICK: an enabled, clocked timer eventually takes its next divided tick. DESIGN CHOICE, unsafe: the rule does not say
what holds of a timer that is stopped before that tick; here a later turn of ENV-TICK is asked for in any case, and one
that is passed over because the timer no longer runs will do (log entry 29). -/
def liveTick (τ : Nat → Turn) (r : Nat → State) : Prop :=
  ∀ n, (r n).timerRuns = true → ∃ m, n ≤ m ∧ τ m = .env .timerTick

/-- LIVE_IRQ: a pending, enabled interrupt eventually starts a handler run. DESIGN CHOICE, unsafe: asked for also where a
system reset clears the pending bit first (log entry 28). -/
def liveIrq (r : Nat → State) : Prop :=
  ∀ n, (r n).canEnterHandler = true → ∃ m, n ≤ m ∧ (r m).irq.active = true

/-! ### Positions in the step tables (10_state.md rule R29) -/

/-- The number of micro-steps of a command's flattened step table (rules R124, R128, R133, R151, R152, R157, R185,
R188, R195; log entry 9). -/
def tableLength : Opcode → Nat
  | .adcreset => 6
  | .adcinit => 34
  | .adcread => 21
  | .tempinit => 35
  | .tempraw => 21
  | .tempconv => 3
  | .tickcomp => 1
  | .tickrun => 22
  | .ticktake => 1

/-- How many micro-steps of the command stand before `ADC_CONV_SEQ`, for the four commands that contain it. -/
def convOffset : Opcode → Option Nat
  | .adcinit => some 13
  | .adcread => some 0
  | .tempinit => some 14
  | .tempraw => some 0
  | .adcreset => none
  | .tempconv => none
  | .tickcomp => none
  | .tickrun => none
  | .ticktake => none

/-- The index of the next micro-step counted from the start of `ADC_CONV_SEQ` (1 to 20 inside it, 21 the row after
it); 0 outside it. -/
def convPos (s : State) : Nat :=
  if s.seq.busy then
    match convOffset s.seq.cur with
    | some o => s.seq.step - o
    | none => 0
  else 0

/-- The channel of the conversion in progress. -/
def convCh (s : State) : BitVec 5 := if s.seq.cur = .adcread then s.seq.lCh else Config.chInternal

/-- The reference mode of the conversion in progress. -/
def convRef (s : State) : Bool := if s.seq.cur = .adcread then s.seq.lRef else true

/-- The next micro-step is r4, the poll that ends `ADC_RESET_SEQ` (rule R122). -/
def atResetPoll (s : State) : Prop :=
  s.seq.busy = true
    ∧ ((s.seq.cur = .adcreset ∧ s.seq.step = 5) ∨ (s.seq.cur = .adcinit ∧ s.seq.step = 7)
      ∨ (s.seq.cur = .tempinit ∧ s.seq.step = 8))

/-! ### The invariants -/

/-- STEP is an index of the step table of the command in progress (rule R29). -/
def PosInv (s : State) : Prop := s.seq.busy = true → 1 ≤ s.seq.step ∧ s.seq.step ≤ tableLength s.seq.cur

/-- R34 (i), (iii), (iv): the shift's range, the relation of TOP to the period, STARTED only when ARMED. -/
def TickInv (s : State) : Prop :=
  s.tick.divShift.toNat ≤ 10
    ∧ (s.tick.divShift.toNat < 10 ∨ s.tick.top ≠ 0xFFFFFF →
        s.tick.top.toNat = (Config.clkCyclesPerMs.toNat * s.tick.periodMs.toNat) >>> s.tick.divShift.toNat
          ∧ s.tick.top.toNat < 0xFFFFFF)
    ∧ (s.tick.started = true → s.tick.armed = true)
    ∧ (s.seq.busy = true → s.seq.cur = .tickrun → 10 < s.seq.step → s.tick.armed = true)

/-- R34 (v), (vi) and what they rest on: the ADC is enabled exactly inside a conversion sequence, from c6 to c11; a
peripheral reset is armed only at r4; a conversion in progress and READY belong to the sequence's own start; the
matched pair, the inputs and the sample time stand from the moment they are programmed; the sample in T0 is the
result of this conversion. -/
def AdcInv (s : State) : Prop :=
  (s.adc.enable = true ↔ 12 ≤ convPos s ∧ convPos s ≤ 19)
    ∧ (s.adc.swrst = true → atResetPoll s)
    ∧ (s.adc.converting = true → 14 ≤ convPos s ∧ convPos s ≤ 15)
    ∧ (s.adc.ready = true → 14 ≤ convPos s ∧ convPos s ≤ 17)
    ∧ (14 ≤ convPos s → convPos s ≤ 15 → s.adc.ready = !s.adc.converting)
    ∧ (16 ≤ convPos s → convPos s ≤ 17 → s.adc.ready = true)
    ∧ (2 ≤ convPos s → s.adc.gain = gainOf (convRef s))
    ∧ (4 ≤ convPos s → s.adc.refsel = refselOf (convRef s))
    ∧ (6 ≤ convPos s → s.adc.posin = convCh s)
    ∧ (8 ≤ convPos s → s.adc.negin = neginOf (convRef s))
    ∧ (10 ≤ convPos s → s.adc.samptime = Config.samptimeMax)
    ∧ (17 ≤ convPos s → s.seq.t0 = s.adc.result.setWidth 32)

/-- 70_reset_and_hazards.md rule R261: while ARMED = 0 the timer is off, and no interrupt is pending, in progress or
recorded. -/
def QuietInv (s : State) : Prop :=
  (s.seq.busy = true → s.seq.cur = .tickrun → 10 < s.seq.step → s.tick.armed = true)
    ∧ (s.tick.armed = false →
        s.timer.enable = false ∧ s.timer.matchFlag = false ∧ s.ic.pending = false ∧ s.irq.active = false
          ∧ s.tickPend = false)

/-- A TICKRUN is past micro-step `k` of its table. -/
def runPast (k : Nat) (s : State) : Prop := s.seq.busy = true ∧ s.seq.cur = .tickrun ∧ k < s.seq.step

/-- The one-time setup stands: clock, mode, interrupt enables, priority (42_tick.md rule R187). -/
def setupStands (s : State) : Prop :=
  s.sys.timerClk = true ∧ s.timer.mode = .countOnMatch ∧ s.timer.intEn = true ∧ s.ic.prio = .lowest
    ∧ s.ic.enable = true

/-- R191: once ARMED the setup stands; once STARTED, outside a running arm sequence, the timer runs with DIVSHIFT and
TOP; and the steps of a TICKRUN in progress on the way there. -/
def ArmInv (s : State) : Prop :=
  (s.tick.armed = true → setupStands s)
    ∧ (runPast 1 s → s.sys.timerClk = true)
    ∧ (runPast 4 s → s.timer.mode = .countOnMatch)
    ∧ (runPast 6 s → s.timer.intEn = true)
    ∧ (runPast 8 s → s.ic.prio = .lowest)
    ∧ (runPast 9 s → s.ic.enable = true)
    ∧ (runPast 10 s → s.tick.armed = true)
    ∧ (runPast 16 s → s.timer.prescaler = s.tick.divShift)
    ∧ (runPast 18 s → s.timer.top = s.tick.top)
    ∧ (runPast 20 s → s.timer.enable = true)
    ∧ (s.tick.started = true → ¬ runPast 11 s →
        s.tick.armed = true ∧ s.timer.enable = true ∧ s.timer.prescaler = s.tick.divShift
          ∧ s.timer.top = s.tick.top)

end Sys2Proof.Safety
end

