-- ==== Sys2Proof/Certificates/Slice0/Obligations.lean ====
section
/-! DEFINITION. The statements for the provers, from the numbered rules of spec/. `Sys2Proof.Statements` holds the words
they are written in. -/

namespace Sys2Proof.Statements

open Sys2Proof.Machine Sys2Proof.Safety

/-! ### Rows of a step table -/

/-- Whenever STEP is `k`, the command `i` answers the state `f s` with STEP advanced. -/
def completesAt (i : Instr) (k : Nat) (f : State → State) : Prop :=
  ∀ s : State, s.seq.step = k → exec i s = .next (f s).advance

/-- Whenever STEP is `k`, the command `i` makes the peripheral write `w`. -/
def writesAt (i : Instr) (k : Nat) (w : FieldWrite) : Prop := completesAt i k (State.pwrite w)

/-- Whenever STEP is `k`, the command `i` waits for `c`: it goes on with nothing changed but STEP where `c` holds, and
stays as it is where `c` does not. -/
def waitsAt (i : Instr) (k : Nat) (c : State → Bool) : Prop :=
  ∀ s : State, s.seq.step = k → exec i s = .next (if c s then s.advance else s)

/-- `PWriteS` at STEP `k` and `k + 1`: the write, then the wait while SYNCBUSY is 1. -/
def writesSyncAt (i : Instr) (k : Nat) (p : Periph) (w : FieldWrite) : Prop :=
  writesAt i k w ∧ waitsAt i (k + 1) (fun s => !s.syncBusy p)

/-- A write under a guard: the write where the guard is true, else nothing but STEP. -/
def writesWhenAt (i : Instr) (k : Nat) (g : State → Bool) (w : FieldWrite) : Prop :=
  completesAt i k (fun s => if g s then s.pwrite w else s)

/-- `PWriteS` under a guard. -/
def writesSyncWhenAt (i : Instr) (k : Nat) (g : State → Bool) (p : Periph) (w : FieldWrite) : Prop :=
  writesWhenAt i k g w ∧ waitsAt i (k + 1) (fun s => !g s || !s.syncBusy p)

/-- The rows r1 to r4 of `ADC_RESET_SEQ` stand in the table of `i` after `o` micro-steps. -/
def resetRowsAt (i : Instr) (o : Nat) : Prop :=
  completesAt i (o + 1) (fun s => s.setT0 (if s.adc.enable then 1 else 0))
    ∧ writesSyncWhenAt i (o + 2) (fun s => s.seq.t0 == 1) .adc (.adcEnable false)
    ∧ writesAt i (o + 4) .adcSwrst
    ∧ waitsAt i (o + 5) (fun s => !s.adc.swrst && !s.adc.syncBusy)

/-- The rows c1 to c11 of `ADC_CONV_SEQ(ch, ref)` stand in the table of `i` after `o` micro-steps. -/
def conversionRowsAt (i : Instr) (o : Nat) (ch : BitVec 5) (ref : Bool) : Prop :=
  writesSyncAt i (o + 1) .adc (.adcGain (if ref then .x1 else .div2))
    ∧ writesSyncAt i (o + 3) .adc (.adcRefsel (if ref then .int1v else .halfSupply))
    ∧ writesSyncAt i (o + 5) .adc (.adcPosin ch)
    ∧ writesSyncAt i (o + 7) .adc (.adcNegin (if ref then .gndIntRef else .gndSupRef))
    ∧ writesSyncAt i (o + 9) .adc (.adcSamptime 0x3F)
    ∧ writesSyncAt i (o + 11) .adc (.adcEnable true)
    ∧ writesSyncAt i (o + 13) .adc .adcStart
    ∧ waitsAt i (o + 15) (fun s => s.adc.ready)
    ∧ completesAt i (o + 16) (fun s => s.setT0 (s.adc.result.setWidth 32))
    ∧ writesSyncAt i (o + 17) .adc .adcReadyClear
    ∧ writesSyncAt i (o + 19) .adc (.adcEnable false)

/-! ### Whole calls -/

/-- The host can act and the block is idle. -/
def idle (s : State) : Prop := s.hostCanStep = true ∧ s.seq.busy = false

/-- `n` micro-step pairs of a `PWriteS`, the busy bit falling between the write and the wait. -/
def pairs (p : Periph) : Nat → List Turn
  | 0 => []
  | n + 1 => [.block, .env (.syncClear p), .block] ++ pairs p n

/-- The host's write of the word `w` to CMD, the register at RETICK_BASE. -/
def call (w : Word) : Turn := .host (.write Config.retickBase 4 w)

/-- The turns of `ADC_RESET_SEQ`, the environment completing the peripheral reset with the draw `d`. -/
def resetTurns (d : AdcResetDraw) : List Turn :=
  [.block] ++ pairs .adc 1 ++ [.block, .env (.adcReset d), .env (.syncClear .adc), .block]

/-- The turns of `ADC_CONV_SEQ`, the environment completing the conversion with the draw `v`. -/
def conversionTurns (v : BitVec 16) : List Turn :=
  pairs .adc 7 ++ [.env (.adcConv v), .block, .block] ++ pairs .adc 2

/-- Everything outside the ADC, the command sequencer, the system fields, RES0 and the model's own fields is the
same. -/
def sameOutsideAdc (s t : State) : Prop :=
  t.regs.arg0 = s.regs.arg0 ∧ t.regs.res1 = s.regs.res1 ∧ t.tick = s.tick ∧ t.tickPend = s.tickPend
    ∧ t.cmdErr = s.cmdErr ∧ t.calErr = s.calErr ∧ t.irq = s.irq ∧ t.timer = s.timer ∧ t.ic = s.ic
    ∧ t.sys.timerClk = s.sys.timerClk ∧ t.mem = s.mem

/-- Every peripheral field is the same. -/
def samePeripherals (s t : State) : Prop :=
  t.adc = s.adc ∧ t.timer = s.timer ∧ t.ic = s.ic ∧ t.sys = s.sys

/-- The latches CUR, L_ARG, L_CH, L_REF are the same. -/
def sameLatches (s t : State) : Prop :=
  t.seq.cur = s.seq.cur ∧ t.seq.lArg = s.seq.lArg ∧ t.seq.lCh = s.seq.lCh ∧ t.seq.lRef = s.seq.lRef

/-- The schedule and what the model holds of the host are the same. -/
def sameHost (s t : State) : Prop :=
  t.world.sched = s.world.sched ∧ t.world.hostWaiting = s.world.hostWaiting ∧ t.world.hostRd = s.world.hostRd

/-- Every byte of the calibration space reads as before. -/
def sameMemory (s t : State) : Prop := ∀ a, readByte t.mem a = readByte s.mem a

/-- `s` after a write that leaves the ADC's fields as `a` says, the busy bit drawn. -/
def adcWritten (a : Adc) (s : State) : State :=
  { s with
    adc := { a with syncBusy := Config.syncDraw s.world.draws }
    world := { s.world with draws := s.world.draws + 1 } }

/-- `s` after a write that leaves the timer's fields as `t` says, the busy bit drawn. -/
def timerWritten (t : Timer) (s : State) : State :=
  { s with
    timer := { t with syncBusy := Config.syncDraw s.world.draws }
    world := { s.world with draws := s.world.draws + 1 } }

/-- What MemRead returns on the memory `m` (20_memory.md rules R65, R67): the four bytes, the one at the lowest address in
bits 7:0; a listed byte as listed, an unlisted one as the factory's (log entry 7), and nothing outside the two words. -/
def memReadReturnsTheBytes (m : List Host.Cell) : Prop :=
  (∀ a b0 b1 b2 b3, readByte m a = some b0 → readByte m (a + 1) = some b1 → readByte m (a + 2) = some b2 →
      readByte m (a + 3) = some b3 → memRead m a = b3 ++ b2 ++ b1 ++ b0)
    ∧ (∀ k, k < 8 → ∃ b, readByte m (Config.calAddr + k) = some b)
    ∧ (memWf m → ∀ c ∈ m, readByte m c.1 = some c.2)
    ∧ (∀ a, Config.calAddr ≤ a → a < Config.calAddr + 8 → (∀ c ∈ m, c.1 ≠ a) →
        readByte m a = some (Config.factoryByte a))
    ∧ (∀ a, a < Config.calAddr ∨ Config.calAddr + 8 ≤ a → readByte m a = none)

/-- The next step is the block's turn: one is listed first, or none is listed. -/
def blockIsNext (s : State) : Prop := s.world.sched = [] ∨ ∃ rest, s.world.sched = .block :: rest

/-- An ADC at rest after a conversion of `ch` with `ref` whose sample was `v`, its busy bit clear, the rest of its
fields those of `a` (40_adc.md rule R135). -/
def adcAfter (ch : BitVec 5) (ref : Bool) (v : BitVec 16) (a : Adc) : Adc :=
  { a with
    enable := false
    gain := if ref then .x1 else .div2
    refsel := if ref then .int1v else .halfSupply
    posin := ch
    negin := if ref then .gndIntRef else .gndSupRef
    samptime := 0x3F
    ready := false
    result := v
    syncBusy := false
    converting := false }

/-- An ADC after a completed peripheral reset with the draw `d`, its busy bit clear (40_adc.md rule R124). -/
def adcAfterReset (d : AdcResetDraw) : Adc := { Adc.resetWith d with syncBusy := false }

/-- `n` divided ticks of the timer. -/
def ticks (n : Nat) (s : State) : State := (State.envStep .timerTick)^[n] s

/-- The state with other host registers. -/
def withRegs (g : HostRegs) (s : State) : State := { s with regs := g }

/-- The host registers with nothing in them. -/
def noRegs : HostRegs := { arg0 := HostReg.empty, res0 := HostReg.empty, res1 := HostReg.empty }

/-- The state with L_ARG and the value of the host's latest read set to 0 too. -/
def withoutOperand (s : State) : State :=
  { withRegs noRegs s with seq := { s.seq with lArg := 0 }, world := { s.world with hostRd := 0 } }

/-- An outcome seen through `f`. -/
def seenThrough (f : State → State) : Host.Outcome State Fault Refusal → Host.Outcome State Fault Refusal
  | .next t => .next (f t)
  | .fault e => .fault e
  | .refused e => .refused e

end Sys2Proof.Statements

open Sys2Proof Sys2Proof.Machine Sys2Proof.Safety Sys2Proof.Statements

/-! ### Encoding (30_encoding.md) -/

/-- R91 to R93: decoding the table word of any well-formed command gives it back, at every channel and reference. -/
def Obligations.DecodeOfEncodeIsTheCommand : Prop :=
  ∀ i : Instr, i.wellFormed = true → decodeTableWord 32 (encode i).toNat = some i

/-- R91, R96: a word that decodes is the word of the command it decodes to, so no bit of it is dropped, and the command
is well-formed. -/
def Obligations.EncodeOfDecodeIsTheWord : Prop :=
  ∀ (w : Word) (i : Instr), decodeWord w = .ok i → i.wellFormed = true ∧ encode i = w

/-- R95: the match and mask of every row, and that the nine match values are disjoint. -/
def Obligations.WordsSelectTheirRowsAlone : Prop :=
  (∀ (w : Word) (i : Instr), decodeWord w = .ok i ↔
      (w = 0x10 ∧ i = .adcreset) ∨ (w = 0x11 ∧ i = .adcinit)
        ∨ (w &&& 0xFFFEE0FF = 0x00000012 ∧ i = .adcread (w.extractLsb' 8 5).toNat (w.getLsbD 16))
        ∨ (w = 0x20 ∧ i = .tempinit) ∨ (w = 0x21 ∧ i = .tempraw) ∨ (w = 0x22 ∧ i = .tempconv)
        ∨ (w = 0x30 ∧ i = .tickcomp) ∨ (w = 0x31 ∧ i = .tickrun) ∨ (w = 0x32 ∧ i = .ticktake))
    ∧ opcodeRows.Pairwise (fun a b => ∀ w : Word, ¬ (w &&& a.mask = a.value ∧ w &&& b.mask = b.value))

/-- R101: the worked encodings; `TICKRUN #1000` is the write of 0x3E8 to ARG0 and of 0x31 to CMD, which an idle block
accepts as a TICKRUN of 1000 milliseconds. -/
def Obligations.WorkedEncodings : Prop :=
  decodeWord 0x00010512 = .ok (.adcread 0x05 true) ∧ encode (.adcread 0x05 true) = 0x00010512
    ∧ decodeWord 0x00001812 = .ok (.adcread 0x18 false) ∧ encode (.adcread 0x18 false) = 0x00001812
    ∧ decodeWord 0x00000031 = .ok .tickrun ∧ encode .tickrun = 0x00000031
    ∧ (∀ s : State, s.seq.busy = false → ∃ t u, s.hostAccess (.write (Config.retickBase + 0x04) 4 0x000003E8) = .next t
        ∧ t.hostAccess (.write Config.retickBase 4 0x00000031) = .next u ∧ u.current = .tickrun ∧ u.seq.lArg.toNat = 1000)
    ∧ decodeWord 0x00000013 = .error .unknownOpcode
    ∧ decodeWord 0x00002012 = .error .nonzeroReserved
    ∧ decodeWord 0x00000110 = .error .nonzeroReserved

/-! ### Acceptance and the step (30_encoding.md rule R97, 10_state.md rule R29) -/

/-- R94, R97, R221: what a word written to CMD does, in every state in which the host can write it. That the latches of
another format, T0 and T1 keep their values is log entry 23's inference, and that a format P command takes the bits of
ARG0 also while the mark says it holds no value is the model's choice of log entry 3. -/
def Obligations.CommandWordsAreAcceptedOrDropped : Prop :=
  ∀ (s : State) (w : Word) (rest : List Turn), s.world.sched = call w :: rest → s.hostCanStep = true →
    (s.seq.busy = true → step s = .next { s.setSched rest with cmdErr := true })
      ∧ (s.seq.busy = false → (∀ i, decodeWord w ≠ .ok i) → step s = .next { s.setSched rest with cmdErr := true })
      ∧ (∀ i, s.seq.busy = false → decodeWord w = .ok i →
          ∃ t, step s = .next t
            ∧ t.seq.cur = opcodeOf i ∧ t.seq.step = 1 ∧ t.seq.busy = true
            ∧ t.seq.lArg = (if takesArg0 i then s.regs.arg0.value else s.seq.lArg)
            ∧ t.seq.lCh = (if opcodeOf i = .adcread then w.extractLsb' 8 5 else s.seq.lCh)
            ∧ t.seq.lRef = (if opcodeOf i = .adcread then w.getLsbD 16 else s.seq.lRef)
            ∧ t.seq.t0 = s.seq.t0 ∧ t.seq.t1 = s.seq.t1
            ∧ { t with seq := s.seq } = s.setSched rest)

/-- R29, R32: the block's turn runs the command the latches name, and is nothing but that command's micro-step; the turn
is used up where one was listed. The command latched at acceptance is the accepted one. -/
def Obligations.BlockTurnRunsTheLatchedCommand : Prop :=
  (∀ s : State, s.irq.active = false → s.seq.busy = true → s.world.sched = [] → step s = exec s.current s)
    ∧ (∀ (s : State) (rest : List Turn), s.irq.active = false → s.seq.busy = true → s.world.sched = .block :: rest →
        step s = exec s.current (s.setSched rest))
    ∧ (∀ (s : State) (i : Instr), i.wellFormed = true → (s.accept i).current = i)

/-- A table word placed where the block takes its command is run by the very next step, from STEP 1 (the placing is the
model's: log entry 12). -/
def Obligations.PlacedWordIsRunNext : Prop :=
  ∀ (s : State) (w : Nat) (i : Instr), decodeTableWord 32 w = some i →
    (s.withFetchWord 32 w).seq.step = 1 ∧ (s.withFetchWord 32 w).current = i
      ∧ step (s.withFetchWord 32 w) = exec i (s.withFetchWord 32 w)

/-! ### Host window (20_memory.md rules R61, R75, R76, 10_state.md rules R21 to R26) -/

/-- R61, R75, R21 to R26: what an idle host reads in each register, with no effect on the block. That a read of ARG0, RES0
or RES1 answers the register's bits also while the mark says it holds no value is the model's choice (log entries 3, 4);
that the value read stands in State is log entry 11's. -/
def Obligations.WindowReadsReturnTheRegisters : Prop :=
  ∀ s : State, s.seq.busy = false →
    s.hostAccess (.read Config.retickBase 4) = .next (s.setHostRd 0)
      ∧ s.hostAccess (.read (Config.retickBase + 0x04) 4) = .next (s.setHostRd s.regs.arg0.value)
      ∧ s.hostAccess (.read (Config.retickBase + 0x08) 4) = .next (s.setHostRd s.regs.res0.value)
      ∧ s.hostAccess (.read (Config.retickBase + 0x0C) 4) = .next (s.setHostRd s.regs.res1.value)
      ∧ s.hostAccess (.read (Config.retickBase + 0x10) 4) = .next (s.setHostRd s.statusWord)
      ∧ s.hostAccess (.read (Config.retickBase + 0x14) 4) = .next (s.setHostRd s.tick.periodMs)
      ∧ s.hostAccess (.read (Config.retickBase + 0x18) 4)
        = .next (s.setHostRd (0#4 ++ s.tick.divShift ++ s.tick.top))

/-- R23: the bits of STATUS, and that it can be read while a command is in progress, with no effect on the block. -/
def Obligations.StatusBitsAndItsRead : Prop :=
  ∀ s : State,
    s.hostAccess (.read (Config.retickBase + 0x10) 4) = .next (s.setHostRd s.statusWord)
      ∧ s.statusWord.getLsbD 0 = s.seq.busy ∧ s.statusWord.getLsbD 1 = s.tickPend
      ∧ s.statusWord.getLsbD 2 = s.tick.armed ∧ s.statusWord.getLsbD 3 = s.tick.started
      ∧ s.statusWord.getLsbD 4 = s.cmdErr ∧ s.statusWord.getLsbD 5 = s.calErr
      ∧ s.statusWord.extractLsb' 6 26 = 0

/-- R61, R76: the accesses the window does not admit, in every state; a write of CMD while busy is not among them. R76
names offset 0x1C; that an address below the window or above 0x1C is refused like it is 93_implementation_defined.md
U13's and log entry 22's. -/
def Obligations.WindowRefusesOddAndBusyAccesses : Prop :=
  ∀ (s : State) (addr size : Nat) (v : Word),
    (size ≠ 4 ∨ addr % 4 ≠ 0 ∨ addr < Config.retickBase ∨ Config.retickBase + 0x1C ≤ addr →
        s.hostAccess (.read addr size) = .refused .accessNotAdmitted
          ∧ s.hostAccess (.write addr size v) = .refused .accessNotAdmitted)
      ∧ (size = 4 → addr % 4 = 0 → Config.retickBase ≤ addr → addr < Config.retickBase + 0x1C → s.seq.busy = true →
          (addr ≠ Config.retickBase + 0x10 → s.hostAccess (.read addr size) = .refused .accessWhileBusy)
            ∧ (addr ≠ Config.retickBase → s.hostAccess (.write addr size v) = .refused .accessWhileBusy)
            ∧ (addr = Config.retickBase → s.hostAccess (.write addr size v) = .next { s with cmdErr := true }))

/-- R21, R22, R61: an idle host's write sets ARG0 and is ignored by the read-only registers. -/
def Obligations.WindowWritesReachArg0Alone : Prop :=
  ∀ (s : State) (v : Word), s.seq.busy = false →
    s.hostAccess (.write (Config.retickBase + 0x04) 4 v)
        = .next { s with regs := { s.regs with arg0 := { value := v, held := true } } }
      ∧ (∀ offset, offset ∈ [0x08, 0x0C, 0x10, 0x14, 0x18] →
          s.hostAccess (.write (Config.retickBase + offset) 4 v) = .next s)

/-- R32, R240: the host takes no step while a handler run is active or while it waits; `.wait` changes nothing of the
block; a wake may come at any time, and a completed handler run wakes it. -/
def Obligations.HostWaitsAndIsWoken : Prop :=
  ∀ (s : State) (rest : List Turn),
    (∀ a, s.world.sched = .host a :: rest → (s.irq.active = true ∨ s.world.hostWaiting = true) →
        step s = .next (s.setSched rest))
      ∧ (s.world.sched = .host .wait :: rest → s.irq.active = false → s.world.hostWaiting = false →
          step s = .next { s with world := { s.world with sched := rest, hostWaiting := true } })
      ∧ (s.world.sched = .wake :: rest →
          step s = .next { s with world := { s.world with sched := rest, hostWaiting := false } })
      ∧ (s.world.sched = .block :: rest → s.irq.active = true → s.irq.istep = .setTick →
          ∃ t, step s = .next t ∧ t.irq.active = false ∧ t.world.hostWaiting = false ∧ t.tickPend = true)

/-! ### Peripheral port and environment (20_memory.md) -/

/-- R63, R69, R71, R73: every peripheral write sets its field to the value at once, whole, applies the field's trigger
effect and leaves every other field as it was. A write to an ADC or timer field takes the environment's draw of SYNCBUSY
in the same step (log entries 2, 21), a write to a SYS or IC field none (R38). -/
def Obligations.PeripheralWritesTakeEffectAtOnce : Prop :=
  ∀ s : State,
    (∀ on, s.pwrite (.adcEnable on)
        = adcWritten { s.adc with enable := on, converting := s.adc.converting && on } s)
      ∧ s.pwrite .adcSwrst = adcWritten { s.adc with swrst := true } s
      ∧ (∀ g, s.pwrite (.adcGain g) = adcWritten { s.adc with gain := g } s)
      ∧ (∀ r, s.pwrite (.adcRefsel r) = adcWritten { s.adc with refsel := r } s)
      ∧ (∀ ch, s.pwrite (.adcPosin ch) = adcWritten { s.adc with posin := ch } s)
      ∧ (∀ n, s.pwrite (.adcNegin n) = adcWritten { s.adc with negin := n } s)
      ∧ (∀ t, s.pwrite (.adcSamptime t) = adcWritten { s.adc with samptime := t } s)
      ∧ (∀ a, s.pwrite (.adcAccum a) = adcWritten { s.adc with accum := a } s)
      ∧ (∀ c, s.pwrite (.adcCtrlword c) = adcWritten { s.adc with ctrlword := c } s)
      ∧ (s.adc.enable = true → s.pwrite .adcStart = adcWritten { s.adc with converting := true } s)
      ∧ (s.adc.enable = false → s.pwrite .adcStart = adcWritten s.adc s)
      ∧ s.pwrite .adcReadyClear = adcWritten { s.adc with ready := false } s
      ∧ (∀ on, s.pwrite (.timerEnable on) = timerWritten { s.timer with enable := on } s)
      ∧ (∀ p, s.pwrite (.timerPrescaler p) = timerWritten { s.timer with prescaler := p } s)
      ∧ (∀ t, s.pwrite (.timerTop t) = timerWritten { s.timer with top := t } s)
      ∧ (∀ c, s.pwrite (.timerCount c) = timerWritten { s.timer with count := c } s)
      ∧ (∀ m, s.pwrite (.timerMode m) = timerWritten { s.timer with mode := m } s)
      ∧ (∀ on, s.pwrite (.timerIntEn on) = timerWritten { s.timer with intEn := on } s)
      ∧ s.pwrite .matchClear = timerWritten { s.timer with matchFlag := false } s
      ∧ s.pwrite .pendingClear = { s with ic := { s.ic with pending := false } }
      ∧ (∀ on, s.pwrite (.icEnable on) = { s with ic := { s.ic with enable := on } })
      ∧ (∀ p, s.pwrite (.icPrio p) = { s with ic := { s.ic with prio := p } })
      ∧ (∀ on, s.pwrite (.sysAdcBusClk on) = { s with sys := { s.sys with adcBusClk := on } })
      ∧ (∀ on, s.pwrite (.sysAdcSampClk on) = { s with sys := { s.sys with adcSampClk := on } })
      ∧ (∀ on, s.pwrite (.sysTimerClk on) = { s with sys := { s.sys with timerClk := on } })
      ∧ (∀ on, s.pwrite (.sysTsensEn on) = { s with sys := { s.sys with tsensEn := on } })

/-- R69, R70: ENV-SYNC, and ENV-ADCRESET for every draw. -/
def Obligations.EnvironmentSyncAndPeripheralReset : Prop :=
  ∀ (s : State) (p : Periph) (d : AdcResetDraw),
    ((s.envStep (.syncClear p)).syncBusy p = false
        ∧ (p = .adc → s.envStep (.syncClear p) = { s with adc := { s.adc with syncBusy := false } })
        ∧ (p = .timer → s.envStep (.syncClear p) = { s with timer := { s.timer with syncBusy := false } }))
      ∧ (s.adc.swrst = false → s.envStep (.adcReset d) = s)
      ∧ (s.adc.swrst = true →
          ∃ t, s.envStep (.adcReset d) = t ∧ t.adc.enable = false ∧ t.adc.ready = false ∧ t.adc.converting = false
            ∧ t.adc.swrst = false ∧ t.adc.syncBusy = d.syncBusy ∧ t.adc.gain = d.gain ∧ t.adc.refsel = d.refsel
            ∧ t.adc.posin = d.posin ∧ t.adc.negin = d.negin ∧ t.adc.samptime = d.samptime
            ∧ t.adc.accum = d.accum ∧ t.adc.ctrlword = d.ctrlword ∧ t.adc.result = d.result
            ∧ { t with adc := s.adc } = s)

/-- R72: a conversion in progress on an enabled ADC may complete in one step with any sample; none completes else. -/
def Obligations.ConversionsCompleteWithAnySample : Prop :=
  ∀ (s : State) (v : BitVec 16),
    (s.adc.converting = true → s.adc.enable = true →
        s.envStep (.adcConv v) = { s with adc := { s.adc with result := v, ready := true, converting := false } })
      ∧ (s.adc.converting = false ∨ s.adc.enable = false → s.envStep (.adcConv v) = s)

/-- R232: one divided tick. -/
def Obligations.DividedTickCountsOrMatches : Prop :=
  ∀ s : State,
    (s.timer.enable = true → s.sys.timerClk = true → s.timer.mode = .countOnMatch →
        (s.timer.count = s.timer.top → ∃ t, s.envStep .timerTick = t ∧ t.timer.count = 0 ∧ t.timer.matchFlag = true
            ∧ t.ic.pending = (s.timer.intEn || s.ic.pending)
            ∧ { t with timer := s.timer, ic := s.ic } = s
            ∧ { t.timer with count := s.timer.count, matchFlag := s.timer.matchFlag } = s.timer
            ∧ t.ic.enable = s.ic.enable ∧ t.ic.prio = s.ic.prio)
          ∧ (s.timer.count ≠ s.timer.top →
              s.envStep .timerTick
                = { s with timer := { s.timer with count := BitVec.ofNat 24 ((s.timer.count.toNat + 1) % 2 ^ 24) } }))
      ∧ (s.timer.enable = false ∨ s.sys.timerClk = false ∨ s.timer.mode ≠ .countOnMatch →
          s.envStep .timerTick = s)

/-- R192, R232: from COUNT = 0 the first TOP divided ticks only count, and the (TOP + 1)-th is the match, after which
COUNT is 0 again, so matches recur every TOP + 1 ticks. -/
def Obligations.MatchComesAfterTopPlusOneTicks : Prop :=
  ∀ s : State, s.timerRuns = true → s.timer.count = 0 →
    (∀ n, n ≤ s.timer.top.toNat →
        ticks n s = { s with timer := { s.timer with count := BitVec.ofNat 24 n } })
      ∧ ticks (s.timer.top.toNat + 1) s
          = { s with
              timer := { s.timer with count := 0, matchFlag := true }
              ic := { s.ic with pending := s.ic.pending || s.timer.intEn } }

/-! ### ADC commands (40_adc.md) -/

/-- R122, R124: every micro-step of ADCRESET. -/
def Obligations.AdcresetStepTable : Prop :=
  resetRowsAt .adcreset 0 ∧ completesAt .adcreset 6 (fun s => { s with seq := { s.seq with busy := false } })

/-- R121, R123: every micro-step of `ADC_CONV_SEQ` in the four commands that contain it. -/
def Obligations.ConversionStepTable : Prop :=
  (∀ (c : Nat) (ref : Bool), c < 32 → conversionRowsAt (.adcread c ref) 0 (BitVec.ofNat 5 c) ref)
    ∧ conversionRowsAt .tempraw 0 0x18 true
    ∧ conversionRowsAt .adcinit 13 0x18 true
    ∧ conversionRowsAt .tempinit 14 0x18 true

/-- R128, R151: the micro-steps of ADCINIT and TEMPINIT before and after the conversion. -/
def Obligations.InitStepTables : Prop :=
  (writesAt .adcinit 1 (.sysAdcBusClk true) ∧ writesAt .adcinit 2 (.sysAdcSampClk true)
      ∧ resetRowsAt .adcinit 2
      ∧ writesSyncAt .adcinit 8 .adc (.adcCtrlword 0x610) ∧ writesSyncAt .adcinit 10 .adc (.adcAccum 0x0A)
      ∧ writesSyncAt .adcinit 12 .adc (.adcSamptime 0x3F)
      ∧ completesAt .adcinit 34 (fun s => { s with seq := { s.seq with busy := false } }))
    ∧ (writesAt .tempinit 1 (.sysTsensEn true)
      ∧ writesAt .tempinit 2 (.sysAdcBusClk true) ∧ writesAt .tempinit 3 (.sysAdcSampClk true)
      ∧ resetRowsAt .tempinit 3
      ∧ writesSyncAt .tempinit 9 .adc (.adcCtrlword 0x610) ∧ writesSyncAt .tempinit 11 .adc (.adcAccum 0x0A)
      ∧ writesSyncAt .tempinit 13 .adc (.adcSamptime 0x3F)
      ∧ completesAt .tempinit 35 (fun s => { s with seq := { s.seq with busy := false } }))

/-- R133, R152: the last micro-step of ADCREAD and TEMPRAW returns the sample in RES0, upper half 0, and ends the
command; TEMPRAW is ADCREAD 0x18, INT in every state. -/
def Obligations.SampleIsReturnedInRes0 : Prop :=
  (∀ (c : Nat) (ref : Bool), c < 32 →
      completesAt (.adcread c ref) 21 (fun s =>
        { s with
          regs := { s.regs with res0 := { value := s.seq.t0, held := true } }
          seq := { s.seq with busy := false } }))
    ∧ (∀ s : State, exec .tempraw s = exec (.adcread 0x18 true) s)
    ∧ (∀ s : State, s.seq.step = 21 → ∃ t, exec .tempraw s = .next t
        ∧ t.regs.res0 = { value := s.seq.t0, held := true } ∧ t.seq.busy = false)

/-- R123, R133, R135 from AdcInv: the sample ADCREAD or TEMPRAW returns is the ADC's result of its own conversion, and the
ADC is off, ready cleared and idle with the pair, the inputs and the sample time of the request. -/
def Obligations.ReturnedSampleIsThisConversions : Prop :=
  ∀ s : State, AdcInv s → s.seq.busy = true → (s.seq.cur = .adcread ∨ s.seq.cur = .tempraw) → s.seq.step = 21 →
    ∃ t, exec s.current s = .next t ∧ t.seq.busy = false
      ∧ t.regs.res0 = { value := s.adc.result.setWidth 32, held := true }
      ∧ t.adc.enable = false ∧ t.adc.ready = false ∧ t.adc.converting = false
      ∧ t.adc.gain = gainOf (convRef s) ∧ t.adc.refsel = refselOf (convRef s) ∧ t.adc.posin = convCh s
      ∧ t.adc.negin = neginOf (convRef s) ∧ t.adc.samptime = 0x3F ∧ t.adc.result = s.adc.result

/-- R124, R125: a whole ADCRESET from the host's call, for every draw of the peripheral reset. -/
def Obligations.AdcresetCallCompletes : Prop :=
  ∀ (s : State) (d : AdcResetDraw) (rest : List Turn), idle s →
    s.world.sched = call 0x10 :: (resetTurns d ++ [.block] ++ rest) →
    ∃ t, Host.Core.run core 10 s = .next t ∧ t.seq.busy = false ∧ t.world.sched = rest
      ∧ t.adc = adcAfterReset d ∧ t.regs = s.regs ∧ t.sys = s.sys ∧ sameOutsideAdc s t

/-- R126 to R129, R151: a whole ADCINIT and a whole TEMPINIT from the host's call, for every draw of the reset and of the
discarded sample. -/
def Obligations.InitCallsComplete : Prop :=
  ∀ (s : State) (d : AdcResetDraw) (v : BitVec 16) (rest : List Turn), idle s →
    (s.world.sched = call 0x11 :: ([.block, .block] ++ resetTurns d ++ pairs .adc 3 ++ conversionTurns v ++ [.block]
        ++ rest) →
      ∃ t, Host.Core.run core 51 s = .next t ∧ t.seq.busy = false ∧ t.world.sched = rest
        ∧ t.adc = adcAfter 0x18 true v { adcAfterReset d with ctrlword := 0x610, accum := 0x0A }
        ∧ t.sys = { s.sys with adcBusClk := true, adcSampClk := true }
        ∧ t.regs = s.regs ∧ sameOutsideAdc s t)
    ∧ (s.world.sched = call 0x20 :: ([.block, .block, .block] ++ resetTurns d ++ pairs .adc 3 ++ conversionTurns v
        ++ [.block] ++ rest) →
      ∃ t, Host.Core.run core 52 s = .next t ∧ t.seq.busy = false ∧ t.world.sched = rest
        ∧ t.adc = adcAfter 0x18 true v { adcAfterReset d with ctrlword := 0x610, accum := 0x0A }
        ∧ t.sys = { s.sys with adcBusClk := true, adcSampClk := true, tsensEn := true }
        ∧ t.regs = s.regs ∧ sameOutsideAdc s t)

/-- R133 to R135, R152: a whole ADCREAD, for every channel and reference, and a whole TEMPRAW from the host's call, for
every sample. -/
def Obligations.ReadCallsReturnTheSample : Prop :=
  ∀ (s : State) (w : Word) (ch : BitVec 5) (ref : Bool) (v : BitVec 16) (rest : List Turn), idle s →
    ((w = encode (.adcread ch.toNat ref)) ∨ (w = 0x21 ∧ ch = 0x18 ∧ ref = true)) →
    s.world.sched = call w :: (conversionTurns v ++ [.block] ++ rest) →
    ∃ t, Host.Core.run core 32 s = .next t ∧ t.seq.busy = false ∧ t.world.sched = rest
      ∧ t.adc = adcAfter ch ref v s.adc
      ∧ t.regs = { s.regs with res0 := { value := v.setWidth 32, held := true } }
      ∧ t.sys = s.sys ∧ sameOutsideAdc s t

/-- R11, R132: without a completed conversion the ready poll c8 holds for ever: nothing but the environment's ENV-CONV or a
system reset ends it, and the run is a hang, whatever handler runs go by. -/
def Obligations.MissingReadySpinsForever : Prop :=
  ∀ (τ : Nat → Turn) (r : Nat → State), isRun τ r → (∀ n, τ n ≠ .reset) → (∀ n v, τ n ≠ .env (.adcConv v)) →
    (r 0).seq.busy = true → convPos (r 0) = 15 → (r 0).adc.ready = false →
    (∀ n, (r n).seq.busy = true ∧ (r n).seq.cur = (r 0).seq.cur ∧ (r n).seq.step = (r 0).seq.step
        ∧ (r n).regs.res0 = (r 0).regs.res0)
      ∧ hangs r

/-! ### Temperature commands (41_temp.md) -/

/-- R153, R154: the fields of the calibration words, the scale of the codes, the millidegrees of the two points and
their range; the sixteen other bits have no effect. -/
def Obligations.CalibrationWordsUnpack : Prop :=
  ∀ w0 w1 : Word,
    (unpack w0 w1).roomMdeg = 1000 * (w0.extractLsb' 0 8).toNat + 100 * (w0.extractLsb' 8 4).toNat
      ∧ (unpack w0 w1).hotMdeg = 1000 * (w0.extractLsb' 12 8).toNat + 100 * (w0.extractLsb' 20 4).toNat
      ∧ (unpack w0 w1).roomCode = (w1.extractLsb' 8 12).setWidth 16 <<< 4
      ∧ (unpack w0 w1).hotCode = (w1.extractLsb' 20 12).setWidth 16 <<< 4
      ∧ (unpack w0 w1).roomMdeg ≤ 256500 ∧ (unpack w0 w1).hotMdeg ≤ 256500

/-- R65, R67, R157, R159: what MemRead returns, and every micro-step of TEMPCONV: the two reads, and the conversion or
CALERR. -/
def Obligations.TempconvStepTable : Prop :=
  ∀ s : State,
    memReadReturnsTheBytes s.mem
      ∧ (s.seq.step = 1 →
          exec .tempconv s = .next { s with seq := { s.seq with t0 := memRead s.mem Config.calAddr, step := 2 } })
      ∧ (s.seq.step = 2 →
          exec .tempconv s = .next { s with seq := { s.seq with t1 := memRead s.mem (Config.calAddr + 4), step := 3 } })
      ∧ (s.seq.step = 3 → (unpack s.seq.t0 s.seq.t1).hotCode ≠ (unpack s.seq.t0 s.seq.t1).roomCode →
          exec .tempconv s = .next { s with
            regs := { s.regs with res0 := { value := BitVec.ofInt 32 (interp (unpack s.seq.t0 s.seq.t1)
              (s.seq.lArg.extractLsb' 0 16)), held := true } }
            seq := { s.seq with busy := false, step := 4 } })
      ∧ (s.seq.step = 3 → (unpack s.seq.t0 s.seq.t1).hotCode = (unpack s.seq.t0 s.seq.t1).roomCode →
          ∃ t, exec .tempconv s = .next t ∧ t.calErr = true ∧ t.regs.res0.held = false ∧ t.seq.busy = false
            ∧ t.regs.arg0 = s.regs.arg0 ∧ t.regs.res1 = s.regs.res1 ∧ t.cmdErr = s.cmdErr ∧ t.tick = s.tick
            ∧ t.tickPend = s.tickPend ∧ t.irq = s.irq ∧ t.mem = s.mem ∧ samePeripherals s t)

/-- R222: CALERR, what raises it, what it does, and where the host sees it. -/
def Obligations.CalerrIsRaisedByEqualCodesAlone : Prop :=
  (∀ (i : Instr) (s t : State), exec i s = .next t → s.calErr = false →
      (t.calErr = true ↔ i = .tempconv ∧ s.seq.step = 3
        ∧ (unpack s.seq.t0 s.seq.t1).hotCode = (unpack s.seq.t0 s.seq.t1).roomCode))
    ∧ (∀ s : State, s.seq.step = 3 →
        (unpack s.seq.t0 s.seq.t1).hotCode = (unpack s.seq.t0 s.seq.t1).roomCode →
        ∃ t, exec .tempconv s = .next t ∧ t.calErr = true ∧ t.statusWord.getLsbD 5 = true
          ∧ t.regs.res0.held = false ∧ t.seq.busy = false)

/-- R155, R158: the ranges of the interpolation on values unpacked from calibration words, and that the 32-bit result
loses nothing; on other codes closer than 8 it can exceed 32 bits. -/
def Obligations.InterpolationFitsThirtyTwoBits : Prop :=
  (∀ (w0 w1 : Word) (raw : BitVec 16), (unpack w0 w1).hotCode ≠ (unpack w0 w1).roomCode →
      16 ≤ (((unpack w0 w1).hotCode.toNat : Int) - (unpack w0 w1).roomCode.toNat).natAbs
        ∧ (interp (unpack w0 w1) raw - (unpack w0 w1).roomMdeg).natAbs < 1050607969
        ∧ (interp (unpack w0 w1) raw).natAbs < 1050607969 + 256500 ∧ (interp (unpack w0 w1) raw).natAbs < 2 ^ 31
        ∧ (BitVec.ofInt 32 (interp (unpack w0 w1) raw)).toInt = interp (unpack w0 w1) raw)
    ∧ (∃ (c : CalibrationPair) (raw : BitVec 16), c.roomMdeg ≤ 256500 ∧ c.hotMdeg ≤ 256500
        ∧ c.hotCode ≠ c.roomCode ∧ ((c.hotCode.toNat : Int) - c.roomCode.toNat).natAbs < 8
        ∧ 2 ^ 31 ≤ interp c raw)

/-- R160: the endpoints are exact, on every calibration with different codes. -/
def Obligations.InterpolationEndpointsAreExact : Prop :=
  ∀ c : CalibrationPair, c.hotCode ≠ c.roomCode →
    interp c c.roomCode = c.roomMdeg ∧ interp c c.hotCode = c.hotMdeg

/-- R161: monotonicity over the whole 16-bit range, and exactly when it is strict. -/
def Obligations.InterpolationIsMonotone : Prop :=
  ∀ c : CalibrationPair, c.roomCode.toNat < c.hotCode.toNat →
    (c.roomMdeg ≤ c.hotMdeg → ∀ a b : BitVec 16, a.toNat ≤ b.toNat → interp c a ≤ interp c b)
      ∧ (c.hotMdeg < c.roomMdeg → ∀ a b : BitVec 16, a.toNat ≤ b.toNat → interp c b ≤ interp c a)
      ∧ ((∀ a b : BitVec 16, a.toNat < b.toNat → interp c a < interp c b)
          ↔ (c.hotCode.toNat : Int) - c.roomCode.toNat ≤ (c.hotMdeg : Int) - c.roomMdeg)
      ∧ (c.roomMdeg ≤ c.hotMdeg → (c.hotMdeg : Int) - c.roomMdeg < (c.hotCode.toNat : Int) - c.roomCode.toNat →
          ∃ a : BitVec 16, a.toNat < 65535 ∧ interp c (a + 1) = interp c a)

/-- R164: the source's scenario on the interpolation, the codes no words unpack to, and the same midpoint on words,
through `interp` and through TEMPCONV. -/
def Obligations.SourceMidpointScenario : Prop :=
  interp { roomMdeg := 25000, hotMdeg := 85000, roomCode := 1000, hotCode := 2000 } 1500 = 55000
    ∧ (∀ w0 w1 : Word, (unpack w0 w1).roomCode ≠ 1000 ∧ (unpack w0 w1).hotCode ≠ 1000
        ∧ (unpack w0 w1).roomCode ≠ 2000 ∧ (unpack w0 w1).hotCode ≠ 2000)
    ∧ interp (unpack 0x00055019 0x7D03E800) 24000 = 55000
    ∧ (∀ s : State, s.seq.step = 3 → s.seq.t0 = 0x00055019 → s.seq.t1 = 0x7D03E800 → s.seq.lArg = 24000 →
        ∃ t, exec .tempconv s = .next t ∧ t.regs.res0 = { value := 0x0000D6D8, held := true })

/-! ### Tick commands (42_tick.md) -/

/-- R181: the 64-bit product is exact. -/
def Obligations.CyclesAreTheExactProduct : Prop :=
  ∀ cpms periodMs : Word, (cyclesOf cpms periodMs).toNat = cpms.toNat * periodMs.toNat

/-- R182 to R184: `computePeriod` in closed form: the least shift below the bound with the shifted cycles, else the
saturated pair, and where it saturates. -/
def Obligations.ComputePeriodTakesTheLeastShift : Prop :=
  ∀ cpms periodMs : Word,
    (∀ k, k ≤ 10 → (cpms.toNat * periodMs.toNat) >>> k < 0xFFFFFF →
        (∀ j, j < k → 0xFFFFFF ≤ (cpms.toNat * periodMs.toNat) >>> j) →
        (computePeriod cpms periodMs).1.toNat = k
          ∧ (computePeriod cpms periodMs).2.toNat = (cpms.toNat * periodMs.toNat) >>> k
          ∧ (computePeriod cpms periodMs).2.toNat = cpms.toNat * periodMs.toNat / 2 ^ k)
      ∧ ((∀ k, k ≤ 10 → 0xFFFFFF ≤ (cpms.toNat * periodMs.toNat) >>> k) →
          computePeriod cpms periodMs = (10, 0xFFFFFF))
      ∧ (0x3FFFFFC00 ≤ cpms.toNat * periodMs.toNat ↔
          ∀ k, k ≤ 10 → 0xFFFFFF ≤ (cpms.toNat * periodMs.toNat) >>> k)

/-- R186: the properties of `computePeriod`. -/
def Obligations.ComputePeriodProperties : Prop :=
  ∀ cpms p q : Word,
    ((computePeriod cpms p).1.toNat ≤ 10 ∧ (computePeriod cpms p).2.toNat ≤ 0xFFFFFF
        ∧ ((computePeriod cpms p).2 = 0xFFFFFF → 0x3FFFFFC00 ≤ cpms.toNat * p.toNat))
      ∧ (0x3FFFFFC00 ≤ cpms.toNat * p.toNat → computePeriod cpms p = (10, 0xFFFFFF))
      ∧ (cpms.toNat * p.toNat < 0x3FFFFFC00 →
          (computePeriod cpms p).2.toNat = (cpms.toNat * p.toNat) >>> (computePeriod cpms p).1.toNat
            ∧ (computePeriod cpms p).2.toNat ≤ 0xFFFFFE
            ∧ (∀ j, j < (computePeriod cpms p).1.toNat → 0xFFFFFF ≤ (cpms.toNat * p.toNat) >>> j)
            ∧ (1 ≤ (computePeriod cpms p).1.toNat → 0x7FFFFF ≤ (computePeriod cpms p).2.toNat))
      ∧ (p.toNat ≤ q.toNat →
          (computePeriod cpms p).1.toNat ≤ (computePeriod cpms q).1.toNat
            ∧ (computePeriod cpms p).2.toNat * 2 ^ (computePeriod cpms p).1.toNat
                ≤ (computePeriod cpms q).2.toNat * 2 ^ (computePeriod cpms q).1.toNat)

/-- R183, R185: TICKCOMP completes in one micro-step with shift and top in RES0 and RES1, the upper bits 0, and changes
nothing else: no flag, no fault bit, no TickTimerState, no peripheral field, saturated or not. -/
def Obligations.TickcompReturnsShiftAndTop : Prop :=
  ∀ s : State, s.seq.step = 1 →
    ∃ t, exec .tickcomp s = .next t
      ∧ t.regs.res0.held = true ∧ t.regs.res1.held = true ∧ t.regs.arg0 = s.regs.arg0
      ∧ t.regs.res0.value.toNat = (computePeriod Config.clkCyclesPerMs s.seq.lArg).1.toNat
      ∧ t.regs.res1.value.toNat = (computePeriod Config.clkCyclesPerMs s.seq.lArg).2.toNat
      ∧ t.seq.busy = false
      ∧ { t with regs := s.regs, seq := s.seq } = s

/-- R187, R188, R190: every micro-step of TICKRUN: the setup where ARMED = 0 and no-ops where it is 1, the arm sequence,
the first-invocation indicator. -/
def Obligations.TickrunStepTable : Prop :=
  writesWhenAt .tickrun 1 (fun s => !s.tick.armed) (.sysTimerClk true)
    ∧ writesSyncWhenAt .tickrun 2 (fun s => !s.tick.armed) .timer (.timerPrescaler 0)
    ∧ writesSyncWhenAt .tickrun 4 (fun s => !s.tick.armed) .timer (.timerMode .countOnMatch)
    ∧ writesSyncWhenAt .tickrun 6 (fun s => !s.tick.armed) .timer (.timerIntEn true)
    ∧ writesWhenAt .tickrun 8 (fun s => !s.tick.armed) (.icPrio .lowest)
    ∧ writesWhenAt .tickrun 9 (fun s => !s.tick.armed) (.icEnable true)
    ∧ completesAt .tickrun 10 (fun s => { s with tick := { s.tick with armed := true } })
    ∧ writesSyncAt .tickrun 11 .timer (.timerEnable false)
    ∧ completesAt .tickrun 13 (fun s => { s with tick := { s.tick with
        periodMs := s.seq.lArg
        divShift := (computePeriod Config.clkCyclesPerMs s.seq.lArg).1
        top := (computePeriod Config.clkCyclesPerMs s.seq.lArg).2 } })
    ∧ writesSyncAt .tickrun 14 .timer (.timerCount 0)
    ∧ (∀ s : State, s.seq.step = 16 → exec .tickrun s = .next (s.pwrite (.timerPrescaler s.tick.divShift)).advance)
    ∧ waitsAt .tickrun 17 (fun s => !s.timer.syncBusy)
    ∧ (∀ s : State, s.seq.step = 18 → exec .tickrun s = .next (s.pwrite (.timerTop s.tick.top)).advance)
    ∧ waitsAt .tickrun 19 (fun s => !s.timer.syncBusy)
    ∧ writesSyncAt .tickrun 20 .timer (.timerEnable true)
    ∧ (∀ s : State, s.seq.step = 22 → ∃ t, exec .tickrun s = .next t ∧ t.seq.busy = false
        ∧ t.tick = { s.tick with started := true }
        ∧ t.regs = { s.regs with res0 := { value := if s.tick.started then 0 else 1, held := true } }
        ∧ { t with tick := s.tick, regs := s.regs, seq := s.seq } = s)

/-- R188, R189, R191: a whole TICKRUN from the host's call, the first one and a later one. That it completes with ARG0's bits
also from an idle state in which ARG0 holds no value, where R21 and R97 refuse the command, is the model's choice of log
entry 3. -/
def Obligations.TickrunCallCompletes : Prop :=
  ∀ (s : State) (rest : List Turn), idle s →
    s.world.sched = call 0x31 :: ([.block] ++ pairs .timer 3 ++ [.block, .block, .block] ++ pairs .timer 1 ++ [.block]
      ++ pairs .timer 4 ++ [.block] ++ rest) →
    (s.tick.armed = true → s.timer.mode = .countOnMatch ∧ s.timer.intEn = true ∧ s.ic.enable = true
      ∧ s.ic.prio = .lowest ∧ s.sys.timerClk = true) →
    ∃ t, Host.Core.run core 31 s = .next t ∧ t.seq.busy = false ∧ t.world.sched = rest
      ∧ t.tick = { periodMs := s.regs.arg0.value
                   divShift := (computePeriod Config.clkCyclesPerMs s.regs.arg0.value).1
                   top := (computePeriod Config.clkCyclesPerMs s.regs.arg0.value).2
                   armed := true
                   started := true }
      ∧ t.regs = { s.regs with res0 := { value := if s.tick.started then 0 else 1, held := true } }
      ∧ t.timer = { enable := true, prescaler := t.tick.divShift, top := t.tick.top, count := 0,
                    mode := .countOnMatch, intEn := true, matchFlag := s.timer.matchFlag, syncBusy := false }
      ∧ t.ic = { pending := s.ic.pending, enable := true, prio := .lowest }
      ∧ t.sys = { s.sys with timerClk := true }
      ∧ t.adc = s.adc ∧ t.tickPend = s.tickPend ∧ t.cmdErr = s.cmdErr ∧ t.calErr = s.calErr ∧ t.irq = s.irq
      ∧ t.mem = s.mem

/-- R195: TICKTAKE completes in one micro-step in every state: RES0 is the flag before the clear, the flag is cleared,
and nothing else changes. -/
def Obligations.TicktakeReadsAndClears : Prop :=
  ∀ s : State, s.seq.step = 1 →
    ∃ t, exec .ticktake s = .next t
      ∧ t.regs = { s.regs with res0 := { value := if s.tickPend then 1 else 0, held := true } }
      ∧ t.tickPend = false ∧ t.seq.busy = false
      ∧ { t with regs := s.regs, seq := s.seq, tickPend := s.tickPend } = s

/-- R194: after the last step of a handler run the next TICKTAKE returns 1 and the one after it 0, whatever the flag was
before: ticks handled between two TICKTAKEs coalesce into one dispatch. -/
def Obligations.HandledTickIsTakenOnce : Prop :=
  ∀ (s : State) (rest : List Turn), s.irq.active = true → s.irq.istep = .setTick → s.seq.busy = false →
    s.world.sched = [.block, call 0x32, .block, call 0x32, .block] ++ rest →
    (∃ t, Host.Core.run core 3 s = .next t ∧ t.regs.res0 = { value := 1, held := true } ∧ t.tickPend = false)
      ∧ (∃ t, Host.Core.run core 5 s = .next t ∧ t.regs.res0 = { value := 0, held := true } ∧ t.tickPend = false
          ∧ t.world.sched = rest)

/-! ### The interrupt (60_exceptions.md) -/

/-- R225, R227: a handler run starts exactly when the interrupt is pending and enabled and no run is active; the entry
saves and changes nothing else. -/
def Obligations.HandlerEntryConditions : Prop :=
  ∀ (s : State) (rest : List Turn), s.world.sched = .irqStart :: rest →
    (s.ic.pending = true → s.ic.enable = true → s.irq.active = false →
        step s = .next { s.setSched rest with irq := { active := true, istep := .clearPending } })
      ∧ (s.ic.pending = false ∨ s.ic.enable = false ∨ s.irq.active = true → step s = .next (s.setSched rest))

/-- R226: the handler's steps: h1, the write of h2, its wait, h3; each says what it leaves, and all else is unchanged. -/
def Obligations.HandlerStepTable : Prop :=
  ∀ s : State,
    (s.irq.istep = .clearPending →
        s.handlerStep = { s with ic := { s.ic with pending := false }, irq := { s.irq with istep := .clearMatch } })
      ∧ (s.irq.istep = .clearMatch →
          s.handlerStep = { s with
            timer := { s.timer with matchFlag := false, syncBusy := Config.syncDraw s.world.draws }
            irq := { s.irq with istep := .syncMatch }
            world := { s.world with draws := s.world.draws + 1 } })
      ∧ (s.irq.istep = .syncMatch → s.timer.syncBusy = true → s.handlerStep = s)
      ∧ (s.irq.istep = .syncMatch → s.timer.syncBusy = false →
          s.handlerStep = { s with irq := { s.irq with istep := .setTick } })
      ∧ (s.irq.istep = .setTick →
          s.handlerStep = { s with tickPend := true, irq := { s.irq with active := false }
                                   world := { s.world with hostWaiting := false } })

/-- R32, R226, R230: while a handler run is active neither HOST nor SEQ takes a step, and a step that is not the
environment's or a system reset leaves everything but the interrupt's own state as it was. -/
def Obligations.HandlerExcludesHostAndSequencer : Prop :=
  ∀ (s t : State), step s = .next t → s.irq.active = true →
    (∀ e rest, s.world.sched ≠ .env e :: rest) → (∀ rest, s.world.sched ≠ .reset :: rest) →
    t.regs = s.regs ∧ t.tick = s.tick ∧ t.cmdErr = s.cmdErr ∧ t.calErr = s.calErr ∧ t.seq = s.seq ∧ t.adc = s.adc
      ∧ t.sys = s.sys ∧ t.mem = s.mem ∧ t.ic.enable = s.ic.enable ∧ t.ic.prio = s.ic.prio
      ∧ { t.timer with matchFlag := s.timer.matchFlag, syncBusy := s.timer.syncBusy } = s.timer
      ∧ t.world.hostRd = s.world.hostRd

/-! ### Frames -/

/-- R124, R128, R133, R135, R151, R152: what the five commands of the ADC leave unchanged at every micro-step. -/
def Obligations.AdcCommandsFrame : Prop :=
  ∀ (i : Instr) (s t : State), exec i s = .next t →
    (i = .adcreset ∨ i = .adcinit ∨ i = .tempinit ∨ i = .tempraw ∨ ∃ c ref, i = .adcread c ref) →
    sameOutsideAdc s t ∧ sameLatches s t ∧ sameHost s t ∧ sameMemory s t ∧ t.seq.t1 = s.seq.t1
      ∧ (i = .adcreset ∨ i = .adcinit ∨ i = .tempinit → t.regs = s.regs)
      ∧ (s.seq.step ≠ 21 → t.regs = s.regs)
      ∧ (i ≠ .adcinit → i ≠ .tempinit → t.sys = s.sys)
      ∧ (i ≠ .tempinit → t.sys.tsensEn = s.sys.tsensEn)
      ∧ (i = .tempraw ∨ (∃ c ref, i = .adcread c ref) →
          t.adc.accum = s.adc.accum ∧ t.adc.ctrlword = s.adc.ctrlword ∧ t.adc.swrst = s.adc.swrst
            ∧ t.adc.result = s.adc.result)

/-- R157, R185, R195: TEMPCONV, TICKCOMP and TICKTAKE touch no peripheral field and no tick state but TICKTAKE's
flag. -/
def Obligations.ArithmeticCommandsFrame : Prop :=
  ∀ (i : Instr) (s t : State), exec i s = .next t → (i = .tempconv ∨ i = .tickcomp ∨ i = .ticktake) →
    samePeripherals s t ∧ t.tick = s.tick ∧ t.irq = s.irq ∧ t.cmdErr = s.cmdErr ∧ t.regs.arg0 = s.regs.arg0
      ∧ sameLatches s t ∧ sameHost s t ∧ sameMemory s t
      ∧ (i ≠ .tickcomp → t.regs.res1 = s.regs.res1)
      ∧ (i ≠ .tempconv → t.calErr = s.calErr ∧ t.seq.t0 = s.seq.t0 ∧ t.seq.t1 = s.seq.t1)
      ∧ (i ≠ .ticktake → t.tickPend = s.tickPend)

/-- R187 to R190: what TICKRUN leaves unchanged at every micro-step: the ADC, the pending match and interrupt, the flag,
the fault bits, ARG0, RES1, the calibration space. -/
def Obligations.TickrunFrame : Prop :=
  ∀ s t : State, exec .tickrun s = .next t →
    t.adc = s.adc ∧ t.tickPend = s.tickPend ∧ t.cmdErr = s.cmdErr ∧ t.calErr = s.calErr ∧ t.irq = s.irq
      ∧ t.regs.arg0 = s.regs.arg0 ∧ t.regs.res1 = s.regs.res1 ∧ t.timer.matchFlag = s.timer.matchFlag
      ∧ t.ic.pending = s.ic.pending ∧ t.sys.adcBusClk = s.sys.adcBusClk ∧ t.sys.adcSampClk = s.sys.adcSampClk
      ∧ t.sys.tsensEn = s.sys.tsensEn ∧ t.seq.t1 = s.seq.t1
      ∧ sameLatches s t ∧ sameHost s t ∧ sameMemory s t
      ∧ (s.seq.step ≠ 22 → t.regs = s.regs ∧ t.seq.t0 = s.seq.t0)
      ∧ (s.tick.armed = true → t.timer.mode = s.timer.mode ∧ t.timer.intEn = s.timer.intEn ∧ t.ic = s.ic
          ∧ t.sys = s.sys)

/-! ### Reset and invariants -/

/-- R40, R260, R261: the reset values the spec states, at reset and after a system reset in any state, whose calibration
words survive. -/
def Obligations.ResetValues : Prop :=
  ∀ (s : State) (rest : List Turn), s.world.sched = .reset :: rest →
    ∃ t, step s = .next t ∧ t.mem = s.mem
      ∧ ∀ u, (u = t ∨ u = State.reset) →
        u.regs.arg0.held = false ∧ u.regs.res0.held = false ∧ u.regs.res1.held = false ∧ u.seq.busy = false
          ∧ u.tickPend = false ∧ u.tick.armed = false ∧ u.tick.started = false ∧ u.cmdErr = false
          ∧ u.calErr = false ∧ u.tick.periodMs = 0 ∧ u.tick.divShift = 0 ∧ u.tick.top = 0
          ∧ u.irq.active = false ∧ u.adc.enable = false ∧ u.adc.swrst = false ∧ u.adc.ready = false
          ∧ u.adc.converting = false ∧ u.adc.syncBusy = false ∧ u.timer.enable = false
          ∧ u.timer.matchFlag = false ∧ u.timer.intEn = false ∧ u.timer.syncBusy = false
          ∧ u.ic.pending = false ∧ u.ic.enable = false

/-- The invariants hold at reset. -/
def Obligations.InvariantsHoldAtReset : Prop :=
  PosInv State.reset ∧ TickInv State.reset ∧ AdcInv State.reset ∧ QuietInv State.reset ∧ ArmInv State.reset
    ∧ memWf State.reset.mem

/-- R29: STEP stays inside the step table of the command in progress, and no step of the machine faults there. -/
def Obligations.StepStaysInsideTheTable : Prop :=
  ∀ s : State, PosInv s → (∀ f, step s ≠ .fault f) ∧ (∀ t, step s = .next t → PosInv t)

/-- R34 (i), (iii), (iv): the tick invariants are kept by every step. -/
def Obligations.TickInvariantIsKept : Prop := ∀ s t : State, TickInv s → step s = .next t → TickInv t

/-- R34 (v), (vi): the ADC invariants are kept by every step. -/
def Obligations.AdcInvariantIsKept : Prop := ∀ s t : State, AdcInv s → step s = .next t → AdcInv t

/-- R34: in every state that meets the invariants (i) to (vi) hold: the shift's range, TOP's range and relation to the
period, STARTED only when ARMED, the ADC off when idle, the matched pair whenever a conversion is in progress. -/
def Obligations.RuleThirtyFourFollows : Prop :=
  ∀ s : State, TickInv s → AdcInv s →
    s.tick.divShift.toNat ≤ 10 ∧ s.tick.top.toNat ≤ 0xFFFFFF
      ∧ (s.tick.divShift.toNat < 10 ∨ s.tick.top ≠ 0xFFFFFF →
          s.tick.top.toNat = (Config.clkCyclesPerMs.toNat * s.tick.periodMs.toNat) >>> s.tick.divShift.toNat
            ∧ s.tick.top.toNat < 0xFFFFFF)
      ∧ (s.tick.started = true → s.tick.armed = true)
      ∧ (s.seq.busy = false → s.adc.enable = false)
      ∧ (s.adc.converting = true →
          (s.adc.gain = .x1 ∧ s.adc.refsel = .int1v) ∨ (s.adc.gain = .div2 ∧ s.adc.refsel = .halfSupply))

/-- R261: before the first TICKRUN has armed the block no interrupt is pending, handled or recorded; kept by every
step. -/
def Obligations.NoInterruptBeforeArming : Prop :=
  ∀ s t : State, QuietInv s → step s = .next t → QuietInv t

/-- R191: the setup stands from ARMED on, and the timer runs with DIVSHIFT and TOP whenever the block is STARTED outside
a running arm sequence; kept by every step. -/
def Obligations.ArmedTimerMatchesTheState : Prop := ∀ s t : State, ArmInv s → step s = .next t → ArmInv t

/-- R65, R260: no step of any agent, a system reset among them, changes the calibration words. -/
def Obligations.CalibrationWordsNeverChange : Prop :=
  ∀ s t : State, step s = .next t → sameMemory s t ∧ (memWf s.mem → memWf t.mem)

/-- R31, R220, R262: a fault bit, ARMED and STARTED are cleared by nothing but a system reset. -/
def Obligations.StickyBitsAreClearedByResetAlone : Prop :=
  ∀ s t : State, step s = .next t → (∀ rest, s.world.sched ≠ .reset :: rest) →
    (s.cmdErr = true → t.cmdErr = true) ∧ (s.calErr = true → t.calErr = true)
      ∧ (s.tick.armed = true → t.tick.armed = true) ∧ (s.tick.started = true → t.tick.started = true)

/-- R28, R193, R242: TICKPEND is set by the handler's last step alone and cleared by TICKTAKE or a reset alone: the turn is
the block's, so no wake and no step of the host or the environment does either. -/
def Obligations.TickpendHasOneProducerAndOneConsumer : Prop :=
  ∀ s t : State, step s = .next t → (∀ rest, s.world.sched ≠ .reset :: rest) →
    (s.tickPend = false → t.tickPend = true → blockIsNext s ∧ s.irq.active = true ∧ s.irq.istep = .setTick)
      ∧ (s.tickPend = true → t.tickPend = false →
          blockIsNext s ∧ s.irq.active = false ∧ s.seq.busy = true ∧ s.seq.cur = .ticktake ∧ s.seq.step = 1)

/-- 10_state.md rules R24 to R27, conflict C7: TickTimerState is written by TICKRUN at its rows s7, a2 and u3 alone,
besides a system reset: the turn is the block's. -/
def Obligations.TickTimerStateIsTickrunsAlone : Prop :=
  ∀ s t : State, step s = .next t → (∀ rest, s.world.sched ≠ .reset :: rest) → t.tick ≠ s.tick →
    blockIsNext s ∧ s.irq.active = false ∧ s.seq.busy = true ∧ s.seq.cur = .tickrun
      ∧ (s.seq.step = 10 ∨ s.seq.step = 13 ∨ s.seq.step = 22)

/-- R21, R22, R94: ARG0, RES0 and RES1 reach nothing but the host that reads them and, at the acceptance of a format P
command, L_ARG: replacing all three by others, marks and bits, changes nothing else of a step of any agent, and nothing at
all but themselves of a step that is not the host's. That the marks too change nothing is the model's choice (log entries
3, 4, 22): by R21, R97 and 93_implementation_defined.md U11 a mark decides whether a read or a format P command is
refused. That the value read stands in State is log entry 11's. -/
def Obligations.HostRegistersReachTheHostAndLArgAlone : Prop :=
  ∀ (s : State) (g : HostRegs),
    seenThrough withoutOperand (step s) = seenThrough withoutOperand (step (withRegs g s))
      ∧ ((∀ a rest, s.world.sched ≠ .host a :: rest) →
          seenThrough (withRegs noRegs) (step s) = seenThrough (withRegs noRegs) (step (withRegs g s)))
      ∧ (∀ t t', step s = .next t → step (withRegs g s) = .next t' → t.seq.lArg ≠ t'.seq.lArg →
          ∃ w i rest, s.world.sched = call w :: rest ∧ decodeWord w = .ok i ∧ takesArg0 i = true
            ∧ t.seq.lArg = s.regs.arg0.value ∧ t'.seq.lArg = g.arg0.value)
end

