-- ==== Sys2Proof/Laws/State.lean ====
section
/-! SUPPORT. What each named update leaves in each field of State: one lemma per field per update, so that no proof
unfolds a record update. -/

namespace Sys2Proof.Machine

variable (s : State)


/-! ### `State.setRes0` -/

@[simp] theorem State.setRes0_regs (v : Word) : (s.setRes0 v).regs = { s.regs with res0 := HostReg.holding v } := rfl
@[simp] theorem State.setRes0_tick (v : Word) : (s.setRes0 v).tick = s.tick := rfl
@[simp] theorem State.setRes0_tickPend (v : Word) : (s.setRes0 v).tickPend = s.tickPend := rfl
@[simp] theorem State.setRes0_cmdErr (v : Word) : (s.setRes0 v).cmdErr = s.cmdErr := rfl
@[simp] theorem State.setRes0_calErr (v : Word) : (s.setRes0 v).calErr = s.calErr := rfl
@[simp] theorem State.setRes0_seq (v : Word) : (s.setRes0 v).seq = s.seq := rfl
@[simp] theorem State.setRes0_irq (v : Word) : (s.setRes0 v).irq = s.irq := rfl
@[simp] theorem State.setRes0_adc (v : Word) : (s.setRes0 v).adc = s.adc := rfl
@[simp] theorem State.setRes0_timer (v : Word) : (s.setRes0 v).timer = s.timer := rfl
@[simp] theorem State.setRes0_ic (v : Word) : (s.setRes0 v).ic = s.ic := rfl
@[simp] theorem State.setRes0_sys (v : Word) : (s.setRes0 v).sys = s.sys := rfl
@[simp] theorem State.setRes0_mem (v : Word) : (s.setRes0 v).mem = s.mem := rfl
@[simp] theorem State.setRes0_world (v : Word) : (s.setRes0 v).world = s.world := rfl

/-! ### `State.setRes1` -/

@[simp] theorem State.setRes1_regs (v : Word) : (s.setRes1 v).regs = { s.regs with res1 := HostReg.holding v } := rfl
@[simp] theorem State.setRes1_tick (v : Word) : (s.setRes1 v).tick = s.tick := rfl
@[simp] theorem State.setRes1_tickPend (v : Word) : (s.setRes1 v).tickPend = s.tickPend := rfl
@[simp] theorem State.setRes1_cmdErr (v : Word) : (s.setRes1 v).cmdErr = s.cmdErr := rfl
@[simp] theorem State.setRes1_calErr (v : Word) : (s.setRes1 v).calErr = s.calErr := rfl
@[simp] theorem State.setRes1_seq (v : Word) : (s.setRes1 v).seq = s.seq := rfl
@[simp] theorem State.setRes1_irq (v : Word) : (s.setRes1 v).irq = s.irq := rfl
@[simp] theorem State.setRes1_adc (v : Word) : (s.setRes1 v).adc = s.adc := rfl
@[simp] theorem State.setRes1_timer (v : Word) : (s.setRes1 v).timer = s.timer := rfl
@[simp] theorem State.setRes1_ic (v : Word) : (s.setRes1 v).ic = s.ic := rfl
@[simp] theorem State.setRes1_sys (v : Word) : (s.setRes1 v).sys = s.sys := rfl
@[simp] theorem State.setRes1_mem (v : Word) : (s.setRes1 v).mem = s.mem := rfl
@[simp] theorem State.setRes1_world (v : Word) : (s.setRes1 v).world = s.world := rfl

/-! ### `State.setArg0` -/

@[simp] theorem State.setArg0_regs (v : Word) : (s.setArg0 v).regs = { s.regs with arg0 := HostReg.holding v } := rfl
@[simp] theorem State.setArg0_tick (v : Word) : (s.setArg0 v).tick = s.tick := rfl
@[simp] theorem State.setArg0_tickPend (v : Word) : (s.setArg0 v).tickPend = s.tickPend := rfl
@[simp] theorem State.setArg0_cmdErr (v : Word) : (s.setArg0 v).cmdErr = s.cmdErr := rfl
@[simp] theorem State.setArg0_calErr (v : Word) : (s.setArg0 v).calErr = s.calErr := rfl
@[simp] theorem State.setArg0_seq (v : Word) : (s.setArg0 v).seq = s.seq := rfl
@[simp] theorem State.setArg0_irq (v : Word) : (s.setArg0 v).irq = s.irq := rfl
@[simp] theorem State.setArg0_adc (v : Word) : (s.setArg0 v).adc = s.adc := rfl
@[simp] theorem State.setArg0_timer (v : Word) : (s.setArg0 v).timer = s.timer := rfl
@[simp] theorem State.setArg0_ic (v : Word) : (s.setArg0 v).ic = s.ic := rfl
@[simp] theorem State.setArg0_sys (v : Word) : (s.setArg0 v).sys = s.sys := rfl
@[simp] theorem State.setArg0_mem (v : Word) : (s.setArg0 v).mem = s.mem := rfl
@[simp] theorem State.setArg0_world (v : Word) : (s.setArg0 v).world = s.world := rfl

/-! ### `State.loseRes0` -/

@[simp] theorem State.loseRes0_regs :
    (s.loseRes0).regs = { s.regs with res0 := { value := Config.lostWord s.world.draws, held := false } } := rfl
@[simp] theorem State.loseRes0_tick : (s.loseRes0).tick = s.tick := rfl
@[simp] theorem State.loseRes0_tickPend : (s.loseRes0).tickPend = s.tickPend := rfl
@[simp] theorem State.loseRes0_cmdErr : (s.loseRes0).cmdErr = s.cmdErr := rfl
@[simp] theorem State.loseRes0_calErr : (s.loseRes0).calErr = s.calErr := rfl
@[simp] theorem State.loseRes0_seq : (s.loseRes0).seq = s.seq := rfl
@[simp] theorem State.loseRes0_irq : (s.loseRes0).irq = s.irq := rfl
@[simp] theorem State.loseRes0_adc : (s.loseRes0).adc = s.adc := rfl
@[simp] theorem State.loseRes0_timer : (s.loseRes0).timer = s.timer := rfl
@[simp] theorem State.loseRes0_ic : (s.loseRes0).ic = s.ic := rfl
@[simp] theorem State.loseRes0_sys : (s.loseRes0).sys = s.sys := rfl
@[simp] theorem State.loseRes0_mem : (s.loseRes0).mem = s.mem := rfl
@[simp] theorem State.loseRes0_world : (s.loseRes0).world = { s.world with draws := s.world.draws + 1 } := rfl

/-! ### `State.storeField` -/

@[simp] theorem State.storeField_regs (w : FieldWrite) : (s.storeField w).regs = s.regs := rfl
@[simp] theorem State.storeField_tick (w : FieldWrite) : (s.storeField w).tick = s.tick := rfl
@[simp] theorem State.storeField_tickPend (w : FieldWrite) : (s.storeField w).tickPend = s.tickPend := rfl
@[simp] theorem State.storeField_cmdErr (w : FieldWrite) : (s.storeField w).cmdErr = s.cmdErr := rfl
@[simp] theorem State.storeField_calErr (w : FieldWrite) : (s.storeField w).calErr = s.calErr := rfl
@[simp] theorem State.storeField_seq (w : FieldWrite) : (s.storeField w).seq = s.seq := rfl
@[simp] theorem State.storeField_irq (w : FieldWrite) : (s.storeField w).irq = s.irq := rfl
@[simp] theorem State.storeField_adc (w : FieldWrite) : (s.storeField w).adc = s.adc.store w := rfl
@[simp] theorem State.storeField_timer (w : FieldWrite) : (s.storeField w).timer = s.timer.store w := rfl
@[simp] theorem State.storeField_ic (w : FieldWrite) : (s.storeField w).ic = s.ic.store w := rfl
@[simp] theorem State.storeField_sys (w : FieldWrite) : (s.storeField w).sys = s.sys.store w := rfl
@[simp] theorem State.storeField_mem (w : FieldWrite) : (s.storeField w).mem = s.mem := rfl
@[simp] theorem State.storeField_world (w : FieldWrite) : (s.storeField w).world = s.world := rfl

/-! ### `State.setSyncBusy` -/

@[simp] theorem State.setSyncBusy_regs (p : Periph) (b : Bool) :
    (s.setSyncBusy p b).regs = s.regs := by cases p <;> rfl
@[simp] theorem State.setSyncBusy_tick (p : Periph) (b : Bool) :
    (s.setSyncBusy p b).tick = s.tick := by cases p <;> rfl
@[simp] theorem State.setSyncBusy_tickPend (p : Periph) (b : Bool) :
    (s.setSyncBusy p b).tickPend = s.tickPend := by cases p <;> rfl
@[simp] theorem State.setSyncBusy_cmdErr (p : Periph) (b : Bool) :
    (s.setSyncBusy p b).cmdErr = s.cmdErr := by cases p <;> rfl
@[simp] theorem State.setSyncBusy_calErr (p : Periph) (b : Bool) :
    (s.setSyncBusy p b).calErr = s.calErr := by cases p <;> rfl
@[simp] theorem State.setSyncBusy_seq (p : Periph) (b : Bool) : (s.setSyncBusy p b).seq = s.seq := by cases p <;> rfl
@[simp] theorem State.setSyncBusy_irq (p : Periph) (b : Bool) : (s.setSyncBusy p b).irq = s.irq := by cases p <;> rfl
@[simp] theorem State.setSyncBusy_ic (p : Periph) (b : Bool) : (s.setSyncBusy p b).ic = s.ic := by cases p <;> rfl
@[simp] theorem State.setSyncBusy_sys (p : Periph) (b : Bool) : (s.setSyncBusy p b).sys = s.sys := by cases p <;> rfl
@[simp] theorem State.setSyncBusy_mem (p : Periph) (b : Bool) : (s.setSyncBusy p b).mem = s.mem := by cases p <;> rfl
@[simp] theorem State.setSyncBusy_world (p : Periph) (b : Bool) :
    (s.setSyncBusy p b).world = s.world := by cases p <;> rfl
@[simp] theorem State.setSyncBusy_adc_adc (b : Bool) :
    (s.setSyncBusy .adc b).adc = { s.adc with syncBusy := b } := rfl
@[simp] theorem State.setSyncBusy_adc_timer (b : Bool) : (s.setSyncBusy .adc b).timer = s.timer := rfl
@[simp] theorem State.setSyncBusy_timer_adc (b : Bool) : (s.setSyncBusy .timer b).adc = s.adc := rfl
@[simp] theorem State.setSyncBusy_timer_timer (b : Bool) :
    (s.setSyncBusy .timer b).timer = { s.timer with syncBusy := b } := rfl

/-! ### `State.drawSync` -/

@[simp] theorem State.drawSync_regs (p : Periph) : (s.drawSync p).regs = s.regs := by cases p <;> rfl
@[simp] theorem State.drawSync_tick (p : Periph) : (s.drawSync p).tick = s.tick := by cases p <;> rfl
@[simp] theorem State.drawSync_tickPend (p : Periph) : (s.drawSync p).tickPend = s.tickPend := by cases p <;> rfl
@[simp] theorem State.drawSync_cmdErr (p : Periph) : (s.drawSync p).cmdErr = s.cmdErr := by cases p <;> rfl
@[simp] theorem State.drawSync_calErr (p : Periph) : (s.drawSync p).calErr = s.calErr := by cases p <;> rfl
@[simp] theorem State.drawSync_seq (p : Periph) : (s.drawSync p).seq = s.seq := by cases p <;> rfl
@[simp] theorem State.drawSync_irq (p : Periph) : (s.drawSync p).irq = s.irq := by cases p <;> rfl
@[simp] theorem State.drawSync_ic (p : Periph) : (s.drawSync p).ic = s.ic := by cases p <;> rfl
@[simp] theorem State.drawSync_sys (p : Periph) : (s.drawSync p).sys = s.sys := by cases p <;> rfl
@[simp] theorem State.drawSync_mem (p : Periph) : (s.drawSync p).mem = s.mem := by cases p <;> rfl
@[simp] theorem State.drawSync_world (p : Periph) :
    (s.drawSync p).world = { s.world with draws := s.world.draws + 1 } := by cases p <;> rfl
@[simp] theorem State.drawSync_adc_adc :
    (s.drawSync .adc).adc = { s.adc with syncBusy := Config.syncDraw s.world.draws } := rfl
@[simp] theorem State.drawSync_adc_timer : (s.drawSync .adc).timer = s.timer := rfl
@[simp] theorem State.drawSync_timer_adc : (s.drawSync .timer).adc = s.adc := rfl
@[simp] theorem State.drawSync_timer_timer :
    (s.drawSync .timer).timer = { s.timer with syncBusy := Config.syncDraw s.world.draws } := rfl

/-! ### `State.pwrite` -/

@[simp] theorem State.pwrite_regs (w : FieldWrite) : (s.pwrite w).regs = s.regs := by cases w <;> rfl
@[simp] theorem State.pwrite_tick (w : FieldWrite) : (s.pwrite w).tick = s.tick := by cases w <;> rfl
@[simp] theorem State.pwrite_tickPend (w : FieldWrite) : (s.pwrite w).tickPend = s.tickPend := by cases w <;> rfl
@[simp] theorem State.pwrite_cmdErr (w : FieldWrite) : (s.pwrite w).cmdErr = s.cmdErr := by cases w <;> rfl
@[simp] theorem State.pwrite_calErr (w : FieldWrite) : (s.pwrite w).calErr = s.calErr := by cases w <;> rfl
@[simp] theorem State.pwrite_seq (w : FieldWrite) : (s.pwrite w).seq = s.seq := by cases w <;> rfl
@[simp] theorem State.pwrite_irq (w : FieldWrite) : (s.pwrite w).irq = s.irq := by cases w <;> rfl
@[simp] theorem State.pwrite_ic (w : FieldWrite) : (s.pwrite w).ic = s.ic.store w := by cases w <;> rfl
@[simp] theorem State.pwrite_sys (w : FieldWrite) : (s.pwrite w).sys = s.sys.store w := by cases w <;> rfl
@[simp] theorem State.pwrite_mem (w : FieldWrite) : (s.pwrite w).mem = s.mem := by cases w <;> rfl
/-- A write to an ADC field: the store, and SYNCBUSY drawn (20_memory.md rules R63, R69). -/
theorem State.pwrite_adc_of_adc (w : FieldWrite) (h : w.periph = some .adc) :
    (s.pwrite w).adc = { s.adc.store w with syncBusy := Config.syncDraw s.world.draws } := by
  cases w <;> first | rfl | simp [FieldWrite.periph] at h

/-- A write elsewhere leaves the ADC alone. -/
theorem State.pwrite_adc_of_other (w : FieldWrite) (h : w.periph ≠ some .adc) : (s.pwrite w).adc = s.adc := by
  cases w <;> first | rfl | simp [FieldWrite.periph] at h

/-- A write to a timer field: the store, and SYNCBUSY drawn (20_memory.md rules R63, R69). -/
theorem State.pwrite_timer_of_timer (w : FieldWrite) (h : w.periph = some .timer) :
    (s.pwrite w).timer = { s.timer.store w with syncBusy := Config.syncDraw s.world.draws } := by
  cases w <;> first | rfl | simp [FieldWrite.periph] at h

/-- A write elsewhere leaves the timer alone. -/
theorem State.pwrite_timer_of_other (w : FieldWrite) (h : w.periph ≠ some .timer) :
    (s.pwrite w).timer = s.timer := by
  cases w <;> first | rfl | simp [FieldWrite.periph] at h

/-- A write draws once where the field's peripheral synchronizes, and never where it does not. -/
theorem State.pwrite_world (w : FieldWrite) :
    (s.pwrite w).world = { s.world with draws := s.world.draws + (if w.periph = none then 0 else 1) } := by
  cases w <;> rfl

/-! ### `State.advance` -/

@[simp] theorem State.advance_regs : (s.advance).regs = s.regs := rfl
@[simp] theorem State.advance_tick : (s.advance).tick = s.tick := rfl
@[simp] theorem State.advance_tickPend : (s.advance).tickPend = s.tickPend := rfl
@[simp] theorem State.advance_cmdErr : (s.advance).cmdErr = s.cmdErr := rfl
@[simp] theorem State.advance_calErr : (s.advance).calErr = s.calErr := rfl
@[simp] theorem State.advance_seq : (s.advance).seq = { s.seq with step := s.seq.step + 1 } := rfl
@[simp] theorem State.advance_irq : (s.advance).irq = s.irq := rfl
@[simp] theorem State.advance_adc : (s.advance).adc = s.adc := rfl
@[simp] theorem State.advance_timer : (s.advance).timer = s.timer := rfl
@[simp] theorem State.advance_ic : (s.advance).ic = s.ic := rfl
@[simp] theorem State.advance_sys : (s.advance).sys = s.sys := rfl
@[simp] theorem State.advance_mem : (s.advance).mem = s.mem := rfl
@[simp] theorem State.advance_world : (s.advance).world = s.world := rfl

/-! ### `State.finish` -/

@[simp] theorem State.finish_regs : (s.finish).regs = s.regs := rfl
@[simp] theorem State.finish_tick : (s.finish).tick = s.tick := rfl
@[simp] theorem State.finish_tickPend : (s.finish).tickPend = s.tickPend := rfl
@[simp] theorem State.finish_cmdErr : (s.finish).cmdErr = s.cmdErr := rfl
@[simp] theorem State.finish_calErr : (s.finish).calErr = s.calErr := rfl
@[simp] theorem State.finish_seq : (s.finish).seq = { s.seq with busy := false } := rfl
@[simp] theorem State.finish_irq : (s.finish).irq = s.irq := rfl
@[simp] theorem State.finish_adc : (s.finish).adc = s.adc := rfl
@[simp] theorem State.finish_timer : (s.finish).timer = s.timer := rfl
@[simp] theorem State.finish_ic : (s.finish).ic = s.ic := rfl
@[simp] theorem State.finish_sys : (s.finish).sys = s.sys := rfl
@[simp] theorem State.finish_mem : (s.finish).mem = s.mem := rfl
@[simp] theorem State.finish_world : (s.finish).world = s.world := rfl

/-! ### `State.setT0` -/

@[simp] theorem State.setT0_regs (v : Word) : (s.setT0 v).regs = s.regs := rfl
@[simp] theorem State.setT0_tick (v : Word) : (s.setT0 v).tick = s.tick := rfl
@[simp] theorem State.setT0_tickPend (v : Word) : (s.setT0 v).tickPend = s.tickPend := rfl
@[simp] theorem State.setT0_cmdErr (v : Word) : (s.setT0 v).cmdErr = s.cmdErr := rfl
@[simp] theorem State.setT0_calErr (v : Word) : (s.setT0 v).calErr = s.calErr := rfl
@[simp] theorem State.setT0_seq (v : Word) : (s.setT0 v).seq = { s.seq with t0 := v } := rfl
@[simp] theorem State.setT0_irq (v : Word) : (s.setT0 v).irq = s.irq := rfl
@[simp] theorem State.setT0_adc (v : Word) : (s.setT0 v).adc = s.adc := rfl
@[simp] theorem State.setT0_timer (v : Word) : (s.setT0 v).timer = s.timer := rfl
@[simp] theorem State.setT0_ic (v : Word) : (s.setT0 v).ic = s.ic := rfl
@[simp] theorem State.setT0_sys (v : Word) : (s.setT0 v).sys = s.sys := rfl
@[simp] theorem State.setT0_mem (v : Word) : (s.setT0 v).mem = s.mem := rfl
@[simp] theorem State.setT0_world (v : Word) : (s.setT0 v).world = s.world := rfl

/-! ### `State.setT1` -/

@[simp] theorem State.setT1_regs (v : Word) : (s.setT1 v).regs = s.regs := rfl
@[simp] theorem State.setT1_tick (v : Word) : (s.setT1 v).tick = s.tick := rfl
@[simp] theorem State.setT1_tickPend (v : Word) : (s.setT1 v).tickPend = s.tickPend := rfl
@[simp] theorem State.setT1_cmdErr (v : Word) : (s.setT1 v).cmdErr = s.cmdErr := rfl
@[simp] theorem State.setT1_calErr (v : Word) : (s.setT1 v).calErr = s.calErr := rfl
@[simp] theorem State.setT1_seq (v : Word) : (s.setT1 v).seq = { s.seq with t1 := v } := rfl
@[simp] theorem State.setT1_irq (v : Word) : (s.setT1 v).irq = s.irq := rfl
@[simp] theorem State.setT1_adc (v : Word) : (s.setT1 v).adc = s.adc := rfl
@[simp] theorem State.setT1_timer (v : Word) : (s.setT1 v).timer = s.timer := rfl
@[simp] theorem State.setT1_ic (v : Word) : (s.setT1 v).ic = s.ic := rfl
@[simp] theorem State.setT1_sys (v : Word) : (s.setT1 v).sys = s.sys := rfl
@[simp] theorem State.setT1_mem (v : Word) : (s.setT1 v).mem = s.mem := rfl
@[simp] theorem State.setT1_world (v : Word) : (s.setT1 v).world = s.world := rfl

/-! ### `State.raiseCmdErr` -/

@[simp] theorem State.raiseCmdErr_regs : (s.raiseCmdErr).regs = s.regs := rfl
@[simp] theorem State.raiseCmdErr_tick : (s.raiseCmdErr).tick = s.tick := rfl
@[simp] theorem State.raiseCmdErr_tickPend : (s.raiseCmdErr).tickPend = s.tickPend := rfl
@[simp] theorem State.raiseCmdErr_cmdErr : (s.raiseCmdErr).cmdErr = true := rfl
@[simp] theorem State.raiseCmdErr_calErr : (s.raiseCmdErr).calErr = s.calErr := rfl
@[simp] theorem State.raiseCmdErr_seq : (s.raiseCmdErr).seq = s.seq := rfl
@[simp] theorem State.raiseCmdErr_irq : (s.raiseCmdErr).irq = s.irq := rfl
@[simp] theorem State.raiseCmdErr_adc : (s.raiseCmdErr).adc = s.adc := rfl
@[simp] theorem State.raiseCmdErr_timer : (s.raiseCmdErr).timer = s.timer := rfl
@[simp] theorem State.raiseCmdErr_ic : (s.raiseCmdErr).ic = s.ic := rfl
@[simp] theorem State.raiseCmdErr_sys : (s.raiseCmdErr).sys = s.sys := rfl
@[simp] theorem State.raiseCmdErr_mem : (s.raiseCmdErr).mem = s.mem := rfl
@[simp] theorem State.raiseCmdErr_world : (s.raiseCmdErr).world = s.world := rfl

/-! ### `State.raiseCalErr` -/

@[simp] theorem State.raiseCalErr_regs :
    (s.raiseCalErr).regs = { s.regs with res0 := { value := Config.lostWord s.world.draws, held := false } } := rfl
@[simp] theorem State.raiseCalErr_tick : (s.raiseCalErr).tick = s.tick := rfl
@[simp] theorem State.raiseCalErr_tickPend : (s.raiseCalErr).tickPend = s.tickPend := rfl
@[simp] theorem State.raiseCalErr_cmdErr : (s.raiseCalErr).cmdErr = s.cmdErr := rfl
@[simp] theorem State.raiseCalErr_calErr : (s.raiseCalErr).calErr = true := rfl
@[simp] theorem State.raiseCalErr_seq : (s.raiseCalErr).seq = { s.seq with busy := false } := rfl
@[simp] theorem State.raiseCalErr_irq : (s.raiseCalErr).irq = s.irq := rfl
@[simp] theorem State.raiseCalErr_adc : (s.raiseCalErr).adc = s.adc := rfl
@[simp] theorem State.raiseCalErr_timer : (s.raiseCalErr).timer = s.timer := rfl
@[simp] theorem State.raiseCalErr_ic : (s.raiseCalErr).ic = s.ic := rfl
@[simp] theorem State.raiseCalErr_sys : (s.raiseCalErr).sys = s.sys := rfl
@[simp] theorem State.raiseCalErr_mem : (s.raiseCalErr).mem = s.mem := rfl
@[simp] theorem State.raiseCalErr_world : (s.raiseCalErr).world = { s.world with draws := s.world.draws + 1 } := rfl

/-! ### `State.enterHandler` -/

@[simp] theorem State.enterHandler_regs : (s.enterHandler).regs = s.regs := rfl
@[simp] theorem State.enterHandler_tick : (s.enterHandler).tick = s.tick := rfl
@[simp] theorem State.enterHandler_tickPend : (s.enterHandler).tickPend = s.tickPend := rfl
@[simp] theorem State.enterHandler_cmdErr : (s.enterHandler).cmdErr = s.cmdErr := rfl
@[simp] theorem State.enterHandler_calErr : (s.enterHandler).calErr = s.calErr := rfl
@[simp] theorem State.enterHandler_seq : (s.enterHandler).seq = s.seq := rfl
@[simp] theorem State.enterHandler_irq : (s.enterHandler).irq = { active := true, istep := .clearPending } := rfl
@[simp] theorem State.enterHandler_adc : (s.enterHandler).adc = s.adc := rfl
@[simp] theorem State.enterHandler_timer : (s.enterHandler).timer = s.timer := rfl
@[simp] theorem State.enterHandler_ic : (s.enterHandler).ic = s.ic := rfl
@[simp] theorem State.enterHandler_sys : (s.enterHandler).sys = s.sys := rfl
@[simp] theorem State.enterHandler_mem : (s.enterHandler).mem = s.mem := rfl
@[simp] theorem State.enterHandler_world : (s.enterHandler).world = s.world := rfl

/-! ### `State.leaveHandler` -/

@[simp] theorem State.leaveHandler_regs : (s.leaveHandler).regs = s.regs := rfl
@[simp] theorem State.leaveHandler_tick : (s.leaveHandler).tick = s.tick := rfl
@[simp] theorem State.leaveHandler_tickPend : (s.leaveHandler).tickPend = s.tickPend := rfl
@[simp] theorem State.leaveHandler_cmdErr : (s.leaveHandler).cmdErr = s.cmdErr := rfl
@[simp] theorem State.leaveHandler_calErr : (s.leaveHandler).calErr = s.calErr := rfl
@[simp] theorem State.leaveHandler_seq : (s.leaveHandler).seq = s.seq := rfl
@[simp] theorem State.leaveHandler_irq : (s.leaveHandler).irq = { s.irq with active := false } := rfl
@[simp] theorem State.leaveHandler_adc : (s.leaveHandler).adc = s.adc := rfl
@[simp] theorem State.leaveHandler_timer : (s.leaveHandler).timer = s.timer := rfl
@[simp] theorem State.leaveHandler_ic : (s.leaveHandler).ic = s.ic := rfl
@[simp] theorem State.leaveHandler_sys : (s.leaveHandler).sys = s.sys := rfl
@[simp] theorem State.leaveHandler_mem : (s.leaveHandler).mem = s.mem := rfl
@[simp] theorem State.leaveHandler_world : (s.leaveHandler).world = { s.world with hostWaiting := false } := rfl

/-! ### `State.setIstep` -/

@[simp] theorem State.setIstep_regs (h : HandlerStep) : (s.setIstep h).regs = s.regs := rfl
@[simp] theorem State.setIstep_tick (h : HandlerStep) : (s.setIstep h).tick = s.tick := rfl
@[simp] theorem State.setIstep_tickPend (h : HandlerStep) : (s.setIstep h).tickPend = s.tickPend := rfl
@[simp] theorem State.setIstep_cmdErr (h : HandlerStep) : (s.setIstep h).cmdErr = s.cmdErr := rfl
@[simp] theorem State.setIstep_calErr (h : HandlerStep) : (s.setIstep h).calErr = s.calErr := rfl
@[simp] theorem State.setIstep_seq (h : HandlerStep) : (s.setIstep h).seq = s.seq := rfl
@[simp] theorem State.setIstep_irq (h : HandlerStep) : (s.setIstep h).irq = { s.irq with istep := h } := rfl
@[simp] theorem State.setIstep_adc (h : HandlerStep) : (s.setIstep h).adc = s.adc := rfl
@[simp] theorem State.setIstep_timer (h : HandlerStep) : (s.setIstep h).timer = s.timer := rfl
@[simp] theorem State.setIstep_ic (h : HandlerStep) : (s.setIstep h).ic = s.ic := rfl
@[simp] theorem State.setIstep_sys (h : HandlerStep) : (s.setIstep h).sys = s.sys := rfl
@[simp] theorem State.setIstep_mem (h : HandlerStep) : (s.setIstep h).mem = s.mem := rfl
@[simp] theorem State.setIstep_world (h : HandlerStep) : (s.setIstep h).world = s.world := rfl

/-! ### `State.accept` -/

@[simp] theorem State.accept_regs (i : Instr) : (s.accept i).regs = s.regs := rfl
@[simp] theorem State.accept_tick (i : Instr) : (s.accept i).tick = s.tick := rfl
@[simp] theorem State.accept_tickPend (i : Instr) : (s.accept i).tickPend = s.tickPend := rfl
@[simp] theorem State.accept_cmdErr (i : Instr) : (s.accept i).cmdErr = s.cmdErr := rfl
@[simp] theorem State.accept_calErr (i : Instr) : (s.accept i).calErr = s.calErr := rfl
@[simp] theorem State.accept_seq (i : Instr) :
    (s.accept i).seq = { latchOperands i s.regs.arg0.value s.seq with busy := true, cur := opcodeOf i, step := 1 } := rfl
@[simp] theorem State.accept_irq (i : Instr) : (s.accept i).irq = s.irq := rfl
@[simp] theorem State.accept_adc (i : Instr) : (s.accept i).adc = s.adc := rfl
@[simp] theorem State.accept_timer (i : Instr) : (s.accept i).timer = s.timer := rfl
@[simp] theorem State.accept_ic (i : Instr) : (s.accept i).ic = s.ic := rfl
@[simp] theorem State.accept_sys (i : Instr) : (s.accept i).sys = s.sys := rfl
@[simp] theorem State.accept_mem (i : Instr) : (s.accept i).mem = s.mem := rfl
@[simp] theorem State.accept_world (i : Instr) : (s.accept i).world = s.world := rfl

/-! ### `State.setArmed` -/

@[simp] theorem State.setArmed_regs : (s.setArmed).regs = s.regs := rfl
@[simp] theorem State.setArmed_tick : (s.setArmed).tick = { s.tick with armed := true } := rfl
@[simp] theorem State.setArmed_tickPend : (s.setArmed).tickPend = s.tickPend := rfl
@[simp] theorem State.setArmed_cmdErr : (s.setArmed).cmdErr = s.cmdErr := rfl
@[simp] theorem State.setArmed_calErr : (s.setArmed).calErr = s.calErr := rfl
@[simp] theorem State.setArmed_seq : (s.setArmed).seq = s.seq := rfl
@[simp] theorem State.setArmed_irq : (s.setArmed).irq = s.irq := rfl
@[simp] theorem State.setArmed_adc : (s.setArmed).adc = s.adc := rfl
@[simp] theorem State.setArmed_timer : (s.setArmed).timer = s.timer := rfl
@[simp] theorem State.setArmed_ic : (s.setArmed).ic = s.ic := rfl
@[simp] theorem State.setArmed_sys : (s.setArmed).sys = s.sys := rfl
@[simp] theorem State.setArmed_mem : (s.setArmed).mem = s.mem := rfl
@[simp] theorem State.setArmed_world : (s.setArmed).world = s.world := rfl

/-! ### `State.applyPeriod` -/

@[simp] theorem State.applyPeriod_regs (p : Word) : (s.applyPeriod p).regs = s.regs := rfl
@[simp] theorem State.applyPeriod_tick (p : Word) :
    (s.applyPeriod p).tick = { s.tick with
      periodMs := p, divShift := (computePeriod Config.clkCyclesPerMs p).1,
      top := (computePeriod Config.clkCyclesPerMs p).2 } := rfl
@[simp] theorem State.applyPeriod_tickPend (p : Word) : (s.applyPeriod p).tickPend = s.tickPend := rfl
@[simp] theorem State.applyPeriod_cmdErr (p : Word) : (s.applyPeriod p).cmdErr = s.cmdErr := rfl
@[simp] theorem State.applyPeriod_calErr (p : Word) : (s.applyPeriod p).calErr = s.calErr := rfl
@[simp] theorem State.applyPeriod_seq (p : Word) : (s.applyPeriod p).seq = s.seq := rfl
@[simp] theorem State.applyPeriod_irq (p : Word) : (s.applyPeriod p).irq = s.irq := rfl
@[simp] theorem State.applyPeriod_adc (p : Word) : (s.applyPeriod p).adc = s.adc := rfl
@[simp] theorem State.applyPeriod_timer (p : Word) : (s.applyPeriod p).timer = s.timer := rfl
@[simp] theorem State.applyPeriod_ic (p : Word) : (s.applyPeriod p).ic = s.ic := rfl
@[simp] theorem State.applyPeriod_sys (p : Word) : (s.applyPeriod p).sys = s.sys := rfl
@[simp] theorem State.applyPeriod_mem (p : Word) : (s.applyPeriod p).mem = s.mem := rfl
@[simp] theorem State.applyPeriod_world (p : Word) : (s.applyPeriod p).world = s.world := rfl

/-! ### `State.setHostRd` -/

@[simp] theorem State.setHostRd_regs (v : Word) : (s.setHostRd v).regs = s.regs := rfl
@[simp] theorem State.setHostRd_tick (v : Word) : (s.setHostRd v).tick = s.tick := rfl
@[simp] theorem State.setHostRd_tickPend (v : Word) : (s.setHostRd v).tickPend = s.tickPend := rfl
@[simp] theorem State.setHostRd_cmdErr (v : Word) : (s.setHostRd v).cmdErr = s.cmdErr := rfl
@[simp] theorem State.setHostRd_calErr (v : Word) : (s.setHostRd v).calErr = s.calErr := rfl
@[simp] theorem State.setHostRd_seq (v : Word) : (s.setHostRd v).seq = s.seq := rfl
@[simp] theorem State.setHostRd_irq (v : Word) : (s.setHostRd v).irq = s.irq := rfl
@[simp] theorem State.setHostRd_adc (v : Word) : (s.setHostRd v).adc = s.adc := rfl
@[simp] theorem State.setHostRd_timer (v : Word) : (s.setHostRd v).timer = s.timer := rfl
@[simp] theorem State.setHostRd_ic (v : Word) : (s.setHostRd v).ic = s.ic := rfl
@[simp] theorem State.setHostRd_sys (v : Word) : (s.setHostRd v).sys = s.sys := rfl
@[simp] theorem State.setHostRd_mem (v : Word) : (s.setHostRd v).mem = s.mem := rfl
@[simp] theorem State.setHostRd_world (v : Word) : (s.setHostRd v).world = { s.world with hostRd := v } := rfl

/-! ### `State.setWaiting` -/

@[simp] theorem State.setWaiting_regs (b : Bool) : (s.setWaiting b).regs = s.regs := rfl
@[simp] theorem State.setWaiting_tick (b : Bool) : (s.setWaiting b).tick = s.tick := rfl
@[simp] theorem State.setWaiting_tickPend (b : Bool) : (s.setWaiting b).tickPend = s.tickPend := rfl
@[simp] theorem State.setWaiting_cmdErr (b : Bool) : (s.setWaiting b).cmdErr = s.cmdErr := rfl
@[simp] theorem State.setWaiting_calErr (b : Bool) : (s.setWaiting b).calErr = s.calErr := rfl
@[simp] theorem State.setWaiting_seq (b : Bool) : (s.setWaiting b).seq = s.seq := rfl
@[simp] theorem State.setWaiting_irq (b : Bool) : (s.setWaiting b).irq = s.irq := rfl
@[simp] theorem State.setWaiting_adc (b : Bool) : (s.setWaiting b).adc = s.adc := rfl
@[simp] theorem State.setWaiting_timer (b : Bool) : (s.setWaiting b).timer = s.timer := rfl
@[simp] theorem State.setWaiting_ic (b : Bool) : (s.setWaiting b).ic = s.ic := rfl
@[simp] theorem State.setWaiting_sys (b : Bool) : (s.setWaiting b).sys = s.sys := rfl
@[simp] theorem State.setWaiting_mem (b : Bool) : (s.setWaiting b).mem = s.mem := rfl
@[simp] theorem State.setWaiting_world (b : Bool) : (s.setWaiting b).world = { s.world with hostWaiting := b } := rfl

/-! ### `State.setSched` -/

@[simp] theorem State.setSched_regs (ts : List Turn) : (s.setSched ts).regs = s.regs := rfl
@[simp] theorem State.setSched_tick (ts : List Turn) : (s.setSched ts).tick = s.tick := rfl
@[simp] theorem State.setSched_tickPend (ts : List Turn) : (s.setSched ts).tickPend = s.tickPend := rfl
@[simp] theorem State.setSched_cmdErr (ts : List Turn) : (s.setSched ts).cmdErr = s.cmdErr := rfl
@[simp] theorem State.setSched_calErr (ts : List Turn) : (s.setSched ts).calErr = s.calErr := rfl
@[simp] theorem State.setSched_seq (ts : List Turn) : (s.setSched ts).seq = s.seq := rfl
@[simp] theorem State.setSched_irq (ts : List Turn) : (s.setSched ts).irq = s.irq := rfl
@[simp] theorem State.setSched_adc (ts : List Turn) : (s.setSched ts).adc = s.adc := rfl
@[simp] theorem State.setSched_timer (ts : List Turn) : (s.setSched ts).timer = s.timer := rfl
@[simp] theorem State.setSched_ic (ts : List Turn) : (s.setSched ts).ic = s.ic := rfl
@[simp] theorem State.setSched_sys (ts : List Turn) : (s.setSched ts).sys = s.sys := rfl
@[simp] theorem State.setSched_mem (ts : List Turn) : (s.setSched ts).mem = s.mem := rfl
@[simp] theorem State.setSched_world (ts : List Turn) : (s.setSched ts).world = { s.world with sched := ts } := rfl

end Sys2Proof.Machine
end

