-- ==== Sys2Proof/Laws/Memory.lean ====
section
/-! SUPPORT. The calibration memory: which reads answer, what a listed and an unlisted byte read as, how a word is made of
its bytes, and that the canonical form holds at reset and is kept by the one operation that rebuilds the state
(20_memory.md rules R65, R67). -/

namespace Sys2Proof.Machine

/-- CAL_ADDR is 4-byte aligned. -/
@[simp] theorem calAddr_aligned : Config.calAddr % 4 = 0 := by simp [Config.calAddr]

/-- A byte inside the space reads as the memory gives it. -/
theorem readByte_inside (m : List Host.Cell) (a : Nat) (h : Config.calAddr ≤ a) (h' : a < calEnd) :
    readByte m a = some (byteAt m a) := by simp [readByte, h, h']

/-- No byte outside the space reads. -/
theorem readByte_outside (m : List Host.Cell) (a : Nat) (h : a < Config.calAddr ∨ calEnd ≤ a) : readByte m a = none := by
  unfold readByte
  rw [if_neg]
  omega

/-- A byte that reads is the one the memory gives. -/
theorem byteAt_of_readByte {m : List Host.Cell} {a : Nat} {v : Byte} (h : readByte m a = some v) : byteAt m a = v := by
  unfold readByte at h
  split at h <;> cases h
  rfl

/-- With nothing listed every byte is the factory's. -/
@[simp] theorem byteAt_nil (a : Nat) : byteAt [] a = Config.factoryByte a := rfl

/-- A byte listed first reads as listed. -/
@[simp] theorem byteAt_cons_self (a : Nat) (v : Byte) (m : List Host.Cell) : byteAt ((a, v) :: m) a = v := by
  simp [byteAt, listedByte]

/-- A byte not listed first reads as the rest of the list gives it. -/
theorem byteAt_cons_ne (a b : Nat) (v : Byte) (m : List Host.Cell) (h : b ≠ a) : byteAt ((b, v) :: m) a = byteAt m a := by
  simp [byteAt, listedByte, h]

/-- An address the list does not name reads as the factory byte. -/
theorem byteAt_unlisted (m : List Host.Cell) (a : Nat) (h : ∀ c ∈ m, c.1 ≠ a) : byteAt m a = Config.factoryByte a := by
  induction m with
  | nil => rfl
  | cons c m ih =>
    rw [byteAt_cons_ne a c.1 c.2 m (h c (by simp))]
    exact ih fun d hd => h d (by simp [hd])

/-- Every address of a rising list is at least its start. -/
theorem le_of_risingFrom {lo : Nat} {m : List Host.Cell} (h : risingFrom lo m = true) : ∀ c ∈ m, lo ≤ c.1 := by
  induction m generalizing lo with
  | nil => simp
  | cons c m ih =>
    simp only [risingFrom, Bool.and_eq_true, decide_eq_true_eq] at h
    intro d hd
    rcases List.mem_cons.1 hd with rfl | hd
    · exact h.1.1
    · have := ih h.2 d hd
      omega

/-- Every address of a rising list is inside the space. -/
theorem lt_calEnd_of_risingFrom {lo : Nat} {m : List Host.Cell} (h : risingFrom lo m = true) : ∀ c ∈ m, c.1 < calEnd := by
  induction m generalizing lo with
  | nil => simp
  | cons c m ih =>
    simp only [risingFrom, Bool.and_eq_true, decide_eq_true_eq] at h
    intro d hd
    rcases List.mem_cons.1 hd with rfl | hd
    · exact h.1.2
    · exact ih h.2 d hd

/-- In a rising list every cell reads as listed. -/
theorem byteAt_listed {lo : Nat} {m : List Host.Cell} (h : risingFrom lo m = true) :
    ∀ c ∈ m, byteAt m c.1 = c.2 := by
  induction m generalizing lo with
  | nil => simp
  | cons c m ih =>
    simp only [risingFrom, Bool.and_eq_true, decide_eq_true_eq] at h
    intro d hd
    rcases List.mem_cons.1 hd with rfl | hd
    · exact byteAt_cons_self _ _ _
    · have := le_of_risingFrom h.2 d hd
      rw [byteAt_cons_ne d.1 c.1 c.2 m (by omega)]
      exact ih h.2 d hd

/-- In a canonical memory every cell is a readable byte, and reads as listed. -/
theorem readByte_listed {m : List Host.Cell} (h : memWf m) (c : Host.Cell) (hc : c ∈ m) : readByte m c.1 = some c.2 := by
  rw [readByte_inside m c.1 (le_of_risingFrom h.1 c hc) (lt_calEnd_of_risingFrom h.1 c hc), byteAt_listed h.1 c hc]

/-- The empty memory of reset is canonical. -/
theorem memWf_reset : memWf State.reset.mem := ⟨rfl, by simp [State.reset]⟩

/-- The system reset keeps the calibration words (70_reset_and_hazards.md rule R260), hence their canonical form. -/
theorem memWf_systemReset (s : State) (h : memWf s.mem) : memWf s.systemReset.mem := h

end Sys2Proof.Machine
end

