-- ==== Sys2Proof/Laws/Micro.lean ====
section
/-! SUPPORT. What one turn of SEQ on a step table can do: the inversion and the completion lemmas of
`State.microStep`, and the small lemmas of its parts. -/

namespace Sys2Proof.Machine

/-- No step table has an entry 0. -/
@[simp] theorem tableAt_zero (table : List MicroOp) : tableAt table 0 = none := rfl

/-- The first entry of a table has index 1. -/
@[simp] theorem tableAt_cons_one (op : MicroOp) (rest : List MicroOp) : tableAt (op :: rest) 1 = some op := rfl

/-- The later entries of a table are those of its rest. -/
@[simp] theorem tableAt_cons_succ (op : MicroOp) (rest : List MicroOp) (k : Nat) :
    tableAt (op :: rest) (k + 2) = tableAt rest (k + 1) := by
  simp [tableAt]

/-- An empty table has no entry. -/
@[simp] theorem tableAt_nil (k : Nat) : tableAt [] k = none := by cases k <;> rfl

/-- An index names an entry exactly when it lies in 1 to the table's length. -/
theorem tableAt_isSome_iff (table : List MicroOp) (k : Nat) :
    (tableAt table k).isSome = true ↔ 1 ≤ k ∧ k ≤ table.length := by
  cases k with
  | zero => simp
  | succ k => simp [tableAt]

/-- An entry inside the first of two joined tables. -/
theorem tableAt_append_left (a b : List MicroOp) (k : Nat) (h : k ≤ a.length) (hk : 1 ≤ k) :
    tableAt (a ++ b) k = tableAt a k := by
  obtain ⟨j, rfl⟩ : ∃ j, k = j + 1 := ⟨k - 1, by omega⟩
  simp [tableAt, List.getElem?_append, show j < a.length by omega]

/-- An entry inside the second of two joined tables. -/
theorem tableAt_append_right (a b : List MicroOp) (k : Nat) (hk : 1 ≤ k) :
    tableAt (a ++ b) (a.length + k) = tableAt b k := by
  obtain ⟨j, rfl⟩ : ∃ j, k = j + 1 := ⟨k - 1, by omega⟩
  show (a ++ b)[a.length + j]? = b[j]?
  rw [List.getElem?_append_right (by omega), Nat.add_sub_cancel_left]

/-- A guard changes no length: STEP counts a guarded row whether or not its guard is true (10_state.md rule R29). -/
@[simp] theorem guarded_length (g : Bool) (ops : List MicroOp) : (guarded g ops).length = ops.length := by
  cases g <;> simp [guarded]

/-- The micro-operations under a true guard. -/
@[simp] theorem guarded_true (ops : List MicroOp) : guarded true ops = ops := rfl

/-- The no-ops under a false guard. -/
@[simp] theorem guarded_false (ops : List MicroOp) : guarded false ops = ops.map fun _ => .nop := rfl

/-- A wait step whose condition is true completes without a change. -/
@[simp] theorem waitFor_true (s : State) : waitFor true s = .completes s := rfl

/-- A wait step whose condition is false holds. -/
@[simp] theorem waitFor_false (s : State) : waitFor false s = .holds := rfl

/-- A micro-operation that completes advances STEP. -/
theorem microStep_of_completes {table : List MicroOp} {s t : State} {op : MicroOp}
    (hop : tableAt table s.seq.step = some op) (hrun : op.run s = .completes t) :
    s.microStep table = .next t.advance := by
  simp [State.microStep, hop, hrun]

/-- A wait that is not enabled leaves everything as it is. -/
theorem microStep_of_holds {table : List MicroOp} {s : State} {op : MicroOp}
    (hop : tableAt table s.seq.step = some op) (hrun : op.run s = .holds) :
    s.microStep table = .next s := by
  simp [State.microStep, hop, hrun]

/-- Everything a turn on a step table can do when it answers a next state: the operation at STEP completes and STEP
advances, or it holds and nothing changes. -/
theorem microStep_cases {table : List MicroOp} {s t : State} (h : s.microStep table = .next t) :
    ∃ op, tableAt table s.seq.step = some op
      ∧ ((∃ u, op.run s = .completes u ∧ t = u.advance) ∨ (op.run s = .holds ∧ t = s)) := by
  unfold State.microStep at h
  split at h
  · cases h
  · rename_i op hop
    refine ⟨op, hop, ?_⟩
    split at h <;> cases h
    · exact .inl ⟨_, ‹_›, rfl⟩
    · exact .inr ⟨‹_›, rfl⟩

/-- No turn on a step table is refused. -/
theorem microStep_not_refused (table : List MicroOp) (s : State) (r : Refusal) :
    s.microStep table ≠ .refused r := by
  unfold State.microStep
  split
  · simp
  · split <;> simp

/-- A wait on SYNCBUSY completes exactly when the bit is 0. -/
theorem run_syncWait (p : Periph) (s : State) :
    (MicroOp.syncWait p).run s = if s.syncBusy p then .holds else .completes s := by
  cases h : s.syncBusy p <;> simp [MicroOp.run, waitFor, h]

end Sys2Proof.Machine
end

