-- ==== Sys2Proof/Laws/Operands.lean ====
section
/-! SUPPORT. Operands: what acceptance latches, the command the latches name, and the fields of the calibration words
under the layout of 20_memory.md rule R66. -/

namespace Sys2Proof.Machine

/-- The command in progress after an acceptance is the accepted one (30_encoding.md rules R94, R97). -/
theorem current_accept (i : Instr) (h : i.wellFormed = true) (s : State) : (s.accept i).current = i := by
  cases i with
  | adcread c r =>
    have hc : c < 32 := by simpa [Instr.wellFormed] using h
    simp [State.current, latchOperands, opcodeOf, Nat.mod_eq_of_lt hc]
  | _ => rfl

/-- Acceptance sets STEP to 1. -/
@[simp] theorem accept_step (i : Instr) (s : State) : (s.accept i).seq.step = 1 := by simp

/-- Acceptance sets BUSY. -/
@[simp] theorem accept_busy (i : Instr) (s : State) : (s.accept i).seq.busy = true := by simp

/-- Acceptance sets CUR. -/
@[simp] theorem accept_cur (i : Instr) (s : State) : (s.accept i).seq.cur = opcodeOf i := by simp

/-- The command in progress is always a well-formed one. -/
theorem current_wellFormed (s : State) : s.current.wellFormed = true := by
  unfold State.current
  cases s.seq.cur <;> simp [Instr.wellFormed]
  exact s.seq.lCh.isLt

/-- The opcode of the command in progress is CUR. -/
@[simp] theorem opcodeOf_current (s : State) : opcodeOf s.current = s.seq.cur := by
  unfold State.current
  cases h : s.seq.cur <;> rfl

/-- A point's millidegrees lie in 0..256500 (41_temp.md rule R154). -/
theorem pointMdeg_le (int : BitVec 8) (frac : BitVec 4) : pointMdeg int frac ≤ 256500 := by
  have := int.isLt
  have := frac.isLt
  unfold pointMdeg
  omega

/-- A scaled code is 16 times the stored one (41_temp.md rule R153). -/
theorem scaledCode_toNat (code : BitVec 12) : (scaledCode code).toNat = 16 * code.toNat := by
  have h : (code ++ 0#4).toNat = code.toNat <<< 4 ||| (0#4).toNat := BitVec.toNat_append code 0#4
  rw [scaledCode, h]
  simp [Nat.shiftLeft_eq, Nat.mul_comm]

end Sys2Proof.Machine
end

