-- ==== Sys2Proof/Laws/PerInstr.lean ====
section
/-! SUPPORT. Statements made per instruction, one lemma per constructor of `Instr`. -/

namespace Sys2Proof.Laws.OpcodeByte

/-- The low byte of a command's word is its opcode in the opcode map (30_encoding.md rules R92, R93), whatever its
operands. -/
def Statement : Instr → Prop
  | .adcreset => opcodeField (encode .adcreset) = 0x10
  | .adcinit => opcodeField (encode .adcinit) = 0x11
  | .adcread channel ref => opcodeField (encode (.adcread channel ref)) = 0x12
  | .tempinit => opcodeField (encode .tempinit) = 0x20
  | .tempraw => opcodeField (encode .tempraw) = 0x21
  | .tempconv => opcodeField (encode .tempconv) = 0x22
  | .tickcomp => opcodeField (encode .tickcomp) = 0x30
  | .tickrun => opcodeField (encode .tickrun) = 0x31
  | .ticktake => opcodeField (encode .ticktake) = 0x32

/-- A word shifted left by eight has no bit in its low byte, so OR-ing it in leaves the opcode field. -/
theorem opcodeField_or_shift (op x : Word) : opcodeField (op ||| x <<< 8) = opcodeField op := by
  apply BitVec.eq_of_getLsbD_eq
  intro i hi
  have h : i < 8 := hi
  simp [opcodeField, h]

/-- The reference bit is above the opcode field. -/
theorem opcodeField_or_ref (w : Word) (ref : Bool) :
    opcodeField (w ||| if ref then 0x10000 else 0) = opcodeField w := by
  have h : (if ref then (0x10000 : Word) else 0) = (if ref then (0x100 : Word) else 0) <<< 8 := by cases ref <;> rfl
  rw [h, opcodeField_or_shift]

theorem adcreset : Statement .adcreset := rfl
theorem adcinit : Statement .adcinit := rfl
theorem adcread (channel : Nat) (ref : Bool) : Statement (.adcread channel ref) := by
  simp only [Statement, encode]
  rw [opcodeField_or_ref, opcodeField_or_shift]
  rfl
theorem tempinit : Statement .tempinit := rfl
theorem tempraw : Statement .tempraw := rfl
theorem tempconv : Statement .tempconv := rfl
theorem tickcomp : Statement .tickcomp := rfl
theorem tickrun : Statement .tickrun := rfl
theorem ticktake : Statement .ticktake := rfl

end Sys2Proof.Laws.OpcodeByte
end

