-- ==== Sys2Proof/Laws/Port.lean ====
section
/-! SUPPORT. The peripheral port: the whole effect of a `PWrite`, by the peripheral it is made to (20_memory.md rules R63,
R69, 10_state.md rule R38). -/

namespace Sys2Proof.Machine

/-- A write to an ADC field: the ADC stores it, its busy bit is drawn, nothing else changes. -/
theorem pwrite_adc (w : FieldWrite) (s : State) (h : w.periph = some .adc) :
    s.pwrite w = { s with
      adc := { s.adc.store w with syncBusy := Config.syncDraw s.world.draws }
      world := { s.world with draws := s.world.draws + 1 } } := by
  cases w <;> cases h <;> rfl

/-- A write to a timer field: the timer stores it, its busy bit is drawn, nothing else changes. -/
theorem pwrite_timer (w : FieldWrite) (s : State) (h : w.periph = some .timer) :
    s.pwrite w = { s with
      timer := { s.timer.store w with syncBusy := Config.syncDraw s.world.draws }
      world := { s.world with draws := s.world.draws + 1 } } := by
  cases w <;> cases h <;> rfl

/-- A write to a controller or system field: no busy bit is drawn and neither the ADC nor the timer changes. -/
theorem pwrite_other (w : FieldWrite) (s : State) (h : w.periph = none) :
    s.pwrite w = { s with ic := s.ic.store w, sys := s.sys.store w } := by
  cases w <;> cases h <;> rfl

/-- A start on an enabled ADC begins a conversion (rule R71). -/
theorem store_start_enabled (a : Adc) (h : a.enable = true) : a.store .adcStart = { a with converting := true } := by
  change ({ a with converting := a.converting || a.enable } : Adc) = _
  rw [h, Bool.or_true]

/-- A start on a disabled ADC begins none (rule R71). -/
theorem store_start_disabled (a : Adc) (h : a.enable = false) : a.store .adcStart = a := by
  change ({ a with converting := a.converting || a.enable } : Adc) = _
  rw [h, Bool.or_false, ← h]

end Sys2Proof.Machine
end

