-- ==== Sys2Proof/Laws/Rows.lean ====
section
/-! SUPPORT. The flattened step tables written out, and `exec` as one turn on the table of its command: what one turn of
SEQ can do, said once for all commands. -/

namespace Sys2Proof.Machine

open Sys2Proof.Safety

/-- The flattened step table of a command, read in the state `s`. -/
def stepTable (i : Instr) (s : State) : List MicroOp :=
  match i with
  | .adcreset => adcResetSeq s ++ [.compute s.finish]
  | .adcinit => adcInitSeq s ++ [.compute s.finish]
  | .adcread channel ref => adcReadTable (BitVec.ofNat 5 channel) ref s
  | .tempinit => [.pwrite (.sysTsensEn true)] ++ adcInitSeq s ++ [.compute s.finish]
  | .tempraw => adcReadTable Config.chInternal true s
  | .tempconv => [.loadCalw0, .loadCalw1, .compute (convertStep s)]
  | .tickcomp => [.compute (returnPeriod s)]
  | .tickrun => guarded (!s.tick.armed) (tickSetupSeq s) ++ tickArmSeq s.seq.lArg s ++ [.compute (returnFirst s)]
  | .ticktake => [.compute (takeTick s)]

/-- Every command is one turn on its step table. -/
theorem exec_eq_microStep (i : Instr) (s : State) : exec i s = s.microStep (stepTable i s) := by cases i <;> rfl

/-- `ADC_CONV_SEQ` written out: twenty micro-steps. -/
theorem adcConvSeq_eq (ch : BitVec 5) (ref : Bool) :
    adcConvSeq ch ref =
      [.pwrite (.adcGain (gainOf ref)), .syncWait .adc, .pwrite (.adcRefsel (refselOf ref)), .syncWait .adc,
       .pwrite (.adcPosin ch), .syncWait .adc, .pwrite (.adcNegin (neginOf ref)), .syncWait .adc,
       .pwrite (.adcSamptime Config.samptimeMax), .syncWait .adc, .pwrite (.adcEnable true), .syncWait .adc,
       .pwrite .adcStart, .syncWait .adc, .pollReady, .readResult, .pwrite .adcReadyClear, .syncWait .adc,
       .pwrite (.adcEnable false), .syncWait .adc] := rfl

/-- `ADC_CONV_SEQ` has twenty micro-steps. -/
@[simp] theorem adcConvSeq_length (ch : BitVec 5) (ref : Bool) : (adcConvSeq ch ref).length = 20 := rfl

/-- `ADC_RESET_SEQ` has five micro-steps, whatever its guard. -/
@[simp] theorem adcResetSeq_length (s : State) : (adcResetSeq s).length = 5 := by
  simp [adcResetSeq, adcS, pwriteS]

/-- Rows i1 to i20 are thirty-three micro-steps. -/
@[simp] theorem adcInitSeq_length (s : State) : (adcInitSeq s).length = 33 := by
  simp [adcInitSeq, adcS, pwriteS]

/-- The length of every table (10_state.md rule R29). -/
theorem stepTable_length (i : Instr) (s : State) : (stepTable i s).length = tableLength (opcodeOf i) := by
  cases i <;> simp [stepTable, tableLength, opcodeOf, adcReadTable, tickSetupSeq, tickArmSeq, timerS, pwriteS]

/-- Everything one turn of SEQ can do when it answers a next state: STEP is an index of the table, and the operation
there completes and STEP advances, or it holds and nothing changes. -/
theorem exec_cases {i : Instr} {s t : State} (h : exec i s = .next t) :
    (1 ≤ s.seq.step ∧ s.seq.step ≤ tableLength (opcodeOf i))
      ∧ ∃ op, tableAt (stepTable i s) s.seq.step = some op
        ∧ ((∃ u, op.run s = .completes u ∧ t = u.advance) ∨ (op.run s = .holds ∧ t = s)) := by
  rw [exec_eq_microStep] at h
  obtain ⟨op, hop, h⟩ := microStep_cases h
  refine ⟨?_, op, hop, h⟩
  rw [← stepTable_length i s]
  exact (tableAt_isSome_iff _ _).1 (by rw [hop]; rfl)

/-- No command is ever refused. -/
theorem exec_not_refused (i : Instr) (s : State) (r : Refusal) : exec i s ≠ .refused r := by
  rw [exec_eq_microStep]
  exact microStep_not_refused _ _ _

/-- A conversion's micro-steps are those of `ADC_CONV_SEQ` after the rows that stand before it. -/
theorem stepTable_conv (i : Instr) (s : State) (o k : Nat) (ho : convOffset (opcodeOf i) = some o)
    (h1 : 1 ≤ k) (h2 : k ≤ 20) :
    tableAt (stepTable i s) (o + k)
      = tableAt (adcConvSeq (match i with | .adcread c _ => BitVec.ofNat 5 c | _ => Config.chInternal)
          (match i with | .adcread _ r => r | _ => true)) k := by
  have key (pre post : List MicroOp) (c : BitVec 5) (r : Bool) (hp : pre.length = o) :
      tableAt (pre ++ (adcConvSeq c r ++ post)) (o + k) = tableAt (adcConvSeq c r) k := by
    rw [← hp, tableAt_append_right _ _ _ h1, tableAt_append_left _ _ _ (by simpa using h2) h1]
  cases i with
  | adcread c r =>
    have h0 : o = 0 := by simpa [convOffset, opcodeOf] using ho.symm
    simpa [stepTable, adcReadTable] using key [] [.compute (s.setRes0 s.seq.t0).finish] (BitVec.ofNat 5 c) r h0.symm
  | tempraw =>
    have h0 : o = 0 := by simpa [convOffset, opcodeOf] using ho.symm
    simpa [stepTable, adcReadTable] using key [] [.compute (s.setRes0 s.seq.t0).finish] Config.chInternal true h0.symm
  | adcinit =>
    have h0 : o = 13 := by simpa [convOffset, opcodeOf] using ho.symm
    have := key ([.pwrite (.sysAdcBusClk true), .pwrite (.sysAdcSampClk true)] ++ adcResetSeq s
      ++ adcS (.adcCtrlword Config.ctrlwordInit) ++ adcS (.adcAccum Config.accum1024)
      ++ adcS (.adcSamptime Config.samptimeMax)) [.compute s.finish] Config.chInternal true
      (by simp [h0, adcS, pwriteS])
    simpa [stepTable, adcInitSeq] using this
  | tempinit =>
    have h0 : o = 14 := by simpa [convOffset, opcodeOf] using ho.symm
    have := key ([.pwrite (.sysTsensEn true)] ++ ([.pwrite (.sysAdcBusClk true), .pwrite (.sysAdcSampClk true)]
      ++ adcResetSeq s ++ adcS (.adcCtrlword Config.ctrlwordInit) ++ adcS (.adcAccum Config.accum1024)
      ++ adcS (.adcSamptime Config.samptimeMax))) [.compute s.finish] Config.chInternal true
      (by simp [h0, adcS, pwriteS])
    simpa [stepTable, adcInitSeq] using this
  | adcreset => simp [convOffset, opcodeOf] at ho
  | tempconv => simp [convOffset, opcodeOf] at ho
  | tickcomp => simp [convOffset, opcodeOf] at ho
  | tickrun => simp [convOffset, opcodeOf] at ho
  | ticktake => simp [convOffset, opcodeOf] at ho

end Sys2Proof.Machine
end

