-- ==== Sys2Proof/Laws/Window.lean ====
section
/-! SUPPORT. The host window: which accesses it admits, and what each access and each offered word can lead to
(20_memory.md rules R61, R76, 30_encoding.md rule R97). -/

namespace Sys2Proof.Machine

/-- RETICK_BASE is 4-byte aligned. -/
@[simp] theorem retickBase_aligned : Config.retickBase % 4 = 0 := by simp [Config.retickBase]

/-- From RETICK_BASE up the window admits the aligned words of its seven registers. -/
theorem admitted_base_add (k size : Nat) :
    admitted (Config.retickBase + k) size = (decide (size = 4) && decide (k % 4 = 0) && decide (k ≤ offTcfg)) := by
  have h : (Config.retickBase + k) % 4 = k % 4 := by have := retickBase_aligned; omega
  simp [admitted, h]

/-- What the window does not admit. -/
theorem admitted_eq_false_iff (addr size : Nat) :
    admitted addr size = false ↔
      size ≠ 4 ∨ addr % 4 ≠ 0 ∨ addr < Config.retickBase ∨ Config.retickBase + 0x1C ≤ addr := by
  have := retickBase_aligned
  have : offTcfg = 0x18 := rfl
  simp only [admitted, Bool.and_eq_false_iff, decide_eq_false_iff_not]
  omega

/-- A read of a register of the window, while idle or of STATUS. -/
theorem hostRead_base_add (s : State) (k : Nat) (hk : k % 4 = 0) (hk' : k ≤ offTcfg)
    (hb : s.seq.busy = false ∨ k = offStatus) :
    s.hostRead (Config.retickBase + k) 4 = .next (s.setHostRd (s.windowRead k)) := by
  rcases hb with hb | rfl <;> simp [State.hostRead, admitted_base_add, *]

/-- A write to CMD offers the word. -/
theorem hostWrite_cmd (s : State) (v : Word) :
    s.hostWrite Config.retickBase 4 v = .next (s.offerCommand v) := by
  have h := admitted_base_add 0 4
  simp only [Nat.add_zero] at h
  simp [State.hostWrite, h, offCmd]

/-- What an offered word leads to (30_encoding.md rule R97). -/
theorem offerCommand_cases (w : Word) (s : State) :
    s.offerCommand w = s.raiseCmdErr
      ∨ (s.seq.busy = false ∧ ∃ i, decodeWord w = .ok i ∧ s.offerCommand w = s.accept i) := by
  unfold State.offerCommand
  cases hb : s.seq.busy
  · cases hd : decodeWord w <;> simp
  · simp

/-- A legal word offered to an idle block is accepted. -/
theorem offerCommand_accept {w : Word} {i : Instr} {s : State} (hb : s.seq.busy = false) (hw : decodeWord w = .ok i) :
    s.offerCommand w = s.accept i := by
  simp [State.offerCommand, hb, hw]

/-- What a host access can lead to: a read returned, ARG0 written, a command offered, the wait step entered, or
nothing. -/
theorem hostAccess_cases {a : HostAccess} {s t : State} (h : s.hostAccess a = .next t) :
    (∃ v, t = s.setHostRd v) ∨ (s.seq.busy = false ∧ ∃ v, t = s.setArg0 v) ∨ (∃ w, t = s.offerCommand w)
      ∨ t = s.setWaiting true ∨ t = s := by
  cases a with
  | read addr size =>
    simp only [State.hostAccess, State.hostRead] at h
    split at h
    · cases h
    · split at h <;> cases h
      exact .inl ⟨_, rfl⟩
  | write addr size v =>
    simp only [State.hostAccess, State.hostWrite] at h
    split at h
    · cases h
    · split at h
      · cases h; exact .inr (.inr (.inl ⟨v, rfl⟩))
      · split at h
        · cases h
        · rename_i hb
          split at h <;> cases h
          · exact .inr (.inl ⟨by simpa using hb, v, rfl⟩)
          · exact .inr (.inr (.inr (.inr rfl)))
  | wait => cases h; exact .inr (.inr (.inr (.inl rfl)))

end Sys2Proof.Machine
end

