-- ==== Sys2Proof/Laws/Schedule.lean ====
section
/-! SUPPORT. What one step of the machine can do: inversion lemmas of the turns, and the step as the first turn of the
schedule. -/

namespace Sys2Proof.Machine

/-- With no turn listed a step is the block's turn. -/
theorem step_nil (s : State) (h : s.world.sched = []) : step s = s.blockTurn := by
  simp [step, State.nextStep, h]

/-- With a turn listed a step is that turn, and the turn is used up. -/
theorem step_cons (s : State) (t : Turn) (rest : List Turn) (h : s.world.sched = t :: rest) :
    step s = (s.setSched rest).takeTurn t := by
  simp [step, State.nextStep, h]

/-- Every step is a turn taken by some agent, after the turn is used up. -/
theorem step_eq_takeTurn (s : State) : ∃ t ts, step s = (s.setSched ts).takeTurn t := by
  cases h : s.world.sched with
  | nil =>
    refine ⟨.block, [], ?_⟩
    have : s.setSched [] = s := by
      cases s with | mk _ _ _ _ _ _ _ _ _ _ _ _ w => cases w; simp_all [State.setSched]
    rw [this, step_nil s h]
    rfl
  | cons t rest => exact ⟨t, rest, step_cons s t rest h⟩

/-- The three forms of the block's turn. -/
theorem blockTurn_cases (s : State) :
    (s.irq.active = true ∧ s.blockTurn = .next s.handlerStep)
      ∨ (s.irq.active = false ∧ s.seq.busy = true ∧ s.blockTurn = exec s.current s)
      ∨ (s.irq.active = false ∧ s.seq.busy = false ∧ s.blockTurn = .next s) := by
  unfold State.blockTurn
  cases s.irq.active <;> cases s.seq.busy <;> simp

/-- Everything a turn can lead to when it answers a next state. -/
theorem takeTurn_cases {tn : Turn} {s t : State} (h : s.takeTurn tn = .next t) :
    (tn = .block ∧ s.irq.active = true ∧ t = s.handlerStep)
      ∨ (tn = .block ∧ s.irq.active = false ∧ s.seq.busy = true ∧ exec s.current s = .next t)
      ∨ (∃ a, tn = .host a ∧ s.irq.active = false ∧ s.world.hostWaiting = false ∧ s.hostAccess a = .next t)
      ∨ (tn = .wake ∧ t = s.setWaiting false)
      ∨ (tn = .irqStart ∧ s.canEnterHandler = true ∧ t = s.enterHandler)
      ∨ (∃ e, tn = .env e ∧ t = s.envStep e)
      ∨ (tn = .reset ∧ t = s.systemReset)
      ∨ t = s := by
  cases tn with
  | block =>
    simp only [State.takeTurn] at h
    rcases blockTurn_cases s with ⟨ha, he⟩ | ⟨ha, hb, he⟩ | ⟨ha, hb, he⟩ <;> rw [he] at h
    · cases h; exact .inl ⟨rfl, ha, rfl⟩
    · exact .inr (.inl ⟨rfl, ha, hb, h⟩)
    · cases h; simp
  | host a =>
    simp only [State.takeTurn, State.hostTurn, State.hostCanStep] at h
    cases ha : s.irq.active <;> cases hw : s.world.hostWaiting <;> simp [ha, hw] at h
    · exact .inr (.inr (.inl ⟨a, rfl, rfl, rfl, h⟩))
    all_goals simp [h]
  | wake => cases h; simp
  | irqStart =>
    simp only [State.takeTurn, State.tryEnterHandler] at h
    cases hc : s.canEnterHandler <;> simp [hc] at h <;> simp [h]
  | env e => cases h; exact .inr (.inr (.inr (.inr (.inr (.inl ⟨e, rfl, rfl⟩)))))
  | reset => cases h; simp

/-- A run of one more step goes on from the state the step leads to. -/
theorem run_succ_of_step {s t : State} (k : Nat) (h : step s = .next t) :
    Host.Core.run Sys2Proof.core (k + 1) s = Host.Core.run Sys2Proof.core k t := by
  have hc : Sys2Proof.core.step s = .next t := h
  simp only [Host.Core.run, hc]

/-- A run of one more step whose turn is listed goes on from the state that turn leads to. -/
theorem run_succ_of_turn {s t : State} {tn : Turn} {rest : List Turn} (k : Nat) (hs : s.world.sched = tn :: rest)
    (h : (s.setSched rest).takeTurn tn = .next t) :
    Host.Core.run Sys2Proof.core (k + 1) s = Host.Core.run Sys2Proof.core k t :=
  run_succ_of_step k (by rw [step_cons s tn rest hs, h])

end Sys2Proof.Machine
end

