-- ==== Sys2Proof/Tests/Slice0.lean ====
section
/-! SUPPORT. Tests of the model against the worked examples and vectors of spec/95_test_vectors.md and the rules' own
examples, and for every obligation with hypotheses a witness that meets them. -/

namespace Sys2Proof.Tests

open Sys2Proof.Machine Sys2Proof.Safety Sys2Proof.Statements

/-! ### Helpers -/

/-- The state a step leads to. -/
def after : Host.Outcome State Fault Refusal → Option State
  | .next t => some t
  | .fault _ => none
  | .refused _ => none

/-- The refusal a step ends in. -/
def refusalOf : Host.Outcome State Fault Refusal → Option Refusal
  | .next _ => none
  | .fault _ => none
  | .refused r => some r

/-- The reset state with the command `c` in progress at STEP `k`. -/
def atStep (c : Opcode) (k : Nat) : State :=
  { State.reset with seq := { State.reset.seq with busy := true, cur := c, step := k } }

/-- `s` with the turns `ts` to come. -/
def withTurns (ts : List Turn) (s : State) : State := { s with world := { s.world with sched := ts } }

/-- `s` with ARG0 written. -/
def withArg (v : Word) (s : State) : State := { s with regs := { s.regs with arg0 := ⟨v, true⟩ } }

/-- `s` with the timer's fields `t`. -/
def withTimer (t : Timer) (s : State) : State := { s with timer := t, sys := { s.sys with timerClk := true } }

/-- The calibration words of vector W1: 0x00055019, 0x7D03E800. -/
def calW1 : List Host.Cell :=
  [(Config.calAddr, 0x19), (Config.calAddr + 1, 0x50), (Config.calAddr + 2, 0x05), (Config.calAddr + 3, 0x00),
   (Config.calAddr + 4, 0x00), (Config.calAddr + 5, 0xE8), (Config.calAddr + 6, 0x03), (Config.calAddr + 7, 0x7D)]

/-- TEMPCONV at v3 with the words `w0`, `w1` read and the operand `raw` latched. -/
def convAt (w0 w1 raw : Word) : State :=
  { atStep .tempconv 3 with
    seq := { busy := true, cur := .tempconv, step := 3, lArg := raw, lCh := 0, lRef := false, t0 := w0, t1 := w1 } }

/-- RES0 after TEMPCONV's v3. -/
def convRes0 (w0 w1 raw : Word) : Option Word :=
  (after (exec .tempconv (convAt w0 w1 raw))).map fun t => t.regs.res0.value

/-- A handler run in progress at `h`. -/
def inHandler (h : HandlerStep) (s : State) : State := { s with irq := { active := true, istep := h } }

/-- A timer counting to `top`, the interrupt enabled, with `count`. -/
def counting (count top : BitVec 24) : State :=
  withTimer { enable := true, prescaler := 0, top := top, count := count, mode := .countOnMatch, intEn := true,
              matchFlag := false, syncBusy := false } State.reset

/-- The ADC as a completed conversion of channel 5 with the internal reference leaves it, sample 0x8000 (vector A1). -/
def adcDone : Adc :=
  { enable := false, swrst := false, gain := .x1, refsel := .int1v, posin := 5, negin := .gndIntRef, samptime := 0x3F,
    accum := 0x0A, ctrlword := 0x610, ready := false, result := 0x8000, syncBusy := false, converting := false }

/-- ADCREAD 0x05, INT at its last row, the sample read. -/
def readDone : State :=
  { State.reset with
    adc := adcDone
    seq := { busy := true, cur := .adcread, step := 21, lArg := 0, lCh := 5, lRef := true, t0 := 0x8000, t1 := 0 } }

/-- ADCREAD 0x05, INT at the ready poll c8. -/
def readPolling : State :=
  { readDone with
    adc := { adcDone with enable := true, converting := true }
    seq := { readDone.seq with step := 15 } }

/-- A draw of the peripheral reset. -/
def someDraw : AdcResetDraw :=
  { syncBusy := true, gain := .div2, refsel := .halfSupply, posin := 7, negin := .gndSupRef, samptime := 1, accum := 2,
    ctrlword := 3, result := 4 }

/-- The block armed and running with a period of 0, setup done. -/
def armedState : State :=
  { counting 0 0 with
    tick := { periodMs := 0, divShift := 0, top := 0, armed := true, started := true }
    ic := { pending := false, enable := true, prio := .lowest } }

/-- `armedState` with the arm sequence of a later TICKRUN at its row a1. -/
def rearming : State := { armedState with seq := (atStep .tickrun 11).seq }

/-! ### Well-formedness: the one check, and an ill-formed listing it refuses -/

theorem test_wellformed_refuses_channel_32 : (Instr.adcread 32 true).wellFormed = false := by decide
theorem test_wellformed_admits_channel_31 : (Instr.adcread 31 false).wellFormed = true := by decide

/-! ### Decoding: every command's word written out from rules R91, R93, bit 31 on the left -/

theorem test_decode_adcreset :
    decodeWord 0b0000_0000_0000_0000_0000_0000_0001_0000 = .ok .adcreset := by rfl
theorem test_decode_adcinit :
    decodeWord 0b0000_0000_0000_0000_0000_0000_0001_0001 = .ok .adcinit := by rfl
theorem test_decode_adcread_5_int :
    decodeWord 0b0000_0000_0000_0001_0000_0101_0001_0010 = .ok (.adcread 5 true) := by rfl
theorem test_decode_adcread_31_int :
    decodeWord 0b0000_0000_0000_0001_0001_1111_0001_0010 = .ok (.adcread 31 true) := by rfl
theorem test_decode_adcread_24_sup :
    decodeWord 0b0000_0000_0000_0000_0001_1000_0001_0010 = .ok (.adcread 24 false) := by rfl
theorem test_decode_tempinit :
    decodeWord 0b0000_0000_0000_0000_0000_0000_0010_0000 = .ok .tempinit := by rfl
theorem test_decode_tempraw :
    decodeWord 0b0000_0000_0000_0000_0000_0000_0010_0001 = .ok .tempraw := by rfl
theorem test_decode_tempconv :
    decodeWord 0b0000_0000_0000_0000_0000_0000_0010_0010 = .ok .tempconv := by rfl
theorem test_decode_tickcomp :
    decodeWord 0b0000_0000_0000_0000_0000_0000_0011_0000 = .ok .tickcomp := by rfl
theorem test_decode_tickrun :
    decodeWord 0b0000_0000_0000_0000_0000_0000_0011_0001 = .ok .tickrun := by rfl
theorem test_decode_ticktake :
    decodeWord 0b0000_0000_0000_0000_0000_0000_0011_0010 = .ok .ticktake := by rfl

/-- Vectors E10 to E14 and the other zero bits of ADCREAD's format. -/
theorem test_decode_refuses :
    decodeWord 0x00000013 = .error .unknownOpcode ∧ decodeWord 0x00002012 = .error .nonzeroReserved
      ∧ decodeWord 0x00020012 = .error .nonzeroReserved ∧ decodeWord 0x00000110 = .error .nonzeroReserved
      ∧ decodeWord 0x00000000 = .error .unknownOpcode ∧ decodeWord 0xFFFFFFFF = .error .unknownOpcode
      ∧ decodeWord 0x80000012 = .error .nonzeroReserved ∧ decodeWord 0x00010032 = .error .nonzeroReserved :=
  ⟨rfl, rfl, rfl, rfl, rfl, rfl, rfl, rfl⟩

theorem test_decode_refuses_three_bytes : decodeBytes [0x10, 0, 0] = .error .truncated := by rfl

/-! ### ADC commands -/

/-- R122, r1: `e` is the enable bit. -/
theorem test_adcreset_reads_enable :
    (after (exec .adcreset { atStep .adcreset 1 with adc := { adcDone with enable := true } })).map
      (fun t => (t.seq.t0, t.seq.step)) = some (1, 2) := by decide

/-- Vector A8: with `e = 0` row r2 writes nothing. -/
theorem test_adcreset_skips_r2 :
    (after (exec .adcreset { atStep .adcreset 2 with adc := { adcDone with enable := true } })).map
      (fun t => (t.adc.enable, t.seq.step)) = some (true, 3) := by decide

/-- R128, i7: the control word. -/
theorem test_adcinit_control_word :
    (after (exec .adcinit (atStep .adcinit 8))).map (fun t => (t.adc.ctrlword, t.seq.step)) = some (0x610, 9) := by
  decide

/-- R127: the dummy conversion is on channel 0x18, and its sample is discarded. -/
theorem test_adcinit_dummy_channel :
    (after (exec .adcinit (atStep .adcinit 18))).map (fun t => t.adc.posin) = some 0x18
      ∧ (after (exec .adcinit (atStep .adcinit 34))).map (fun t => (t.regs.res0.held, t.seq.busy))
        = some (false, false) := by decide

/-- Vector A1: RES0 = 0x00008000, BUSY falls. -/
theorem test_adcread_returns_sample :
    (after (exec (.adcread 5 true) readDone)).map (fun t => (t.regs.res0, t.seq.busy))
      = some (⟨0x00008000, true⟩, false) := by decide

/-- Vector A2: the supply reference. -/
theorem test_adcread_supply_reference :
    (after (exec (.adcread 5 false) (atStep .adcread 1))).map (fun t => t.adc.gain) = some .div2
      ∧ (after (exec (.adcread 5 false) (atStep .adcread 3))).map (fun t => t.adc.refsel) = some .halfSupply := by
  decide

/-! ### Temperature commands -/

/-- R151, t1 and the dummy conversion one row later than ADCINIT's. -/
theorem test_tempinit_enables_sensor :
    (after (exec .tempinit (atStep .tempinit 1))).map (fun t => t.sys.tsensEn) = some true
      ∧ (after (exec .tempinit (atStep .tempinit 19))).map (fun t => t.adc.posin) = some 0x18 := by decide

/-- Vector A10. -/
theorem test_tempraw_returns_sample :
    (after (exec .tempraw { readDone with seq := { readDone.seq with cur := .tempraw, t0 := 0x5DC0 } })).map
      (fun t => t.regs.res0.value) = some 0x00005DC0 := by decide

/-- Vectors T1, T2, T5, T10 on W1, T25 on W4, T35 on W6, T36 on W7, T12 on W2. -/
theorem test_tempconv_vectors :
    convRes0 0x00055019 0x7D03E800 0 = some 0xFFFF7748 ∧ convRes0 0x00055019 0x7D03E800 15999 = some 0x000061A5
      ∧ convRes0 0x00055019 0x7D03E800 24000 = some 0x0000D6D8
      ∧ convRes0 0x00055019 0x7D03E800 0xFFFF5DC0 = some 0x0000D6D8
      ∧ convRes0 0x00055019 0x3E87D000 32001 = some 0x000061A5
      ∧ convRes0 0x00FFF000 0x00100000 65535 = some 0x3E9F0160
      ∧ convRes0 0x00000FFF 0x00100000 65535 = some 0xC164E894
      ∧ convRes0 0xAB955319 0xCB2A73CD 30000 = some 0xFFFF197B := by decide

/-- Vector T39 on W9: CALERR, RES0 holds no value, BUSY falls, STATUS is 0x20. -/
theorem test_tempconv_equal_codes :
    (after (exec .tempconv (convAt 0x00055019 0x3E83E800 24000))).map
      (fun t => (t.statusWord, t.regs.res0.held)) = some (0x00000020, false) := by decide

/-- The words of W1 read from their bytes at CAL_ADDR (rules R65, R67). -/
theorem test_memread_words : calw0 calW1 = 0x00055019 ∧ calw1 calW1 = 0x7D03E800 := by
  constructor <;> simp [calw0, calw1, memRead, byteAt, listedByte, calW1, Nat.add_assoc] <;> rfl

/-! ### Tick commands -/

/-- Vectors P1, P6, P7, P9, P12, P13. -/
theorem test_computePeriod_48000 :
    computePeriod 48000 0 = (0, 0) ∧ computePeriod 48000 349 = (0, 0xFF9D80)
      ∧ computePeriod 48000 350 = (1, 0x802C80) ∧ computePeriod 48000 1000 = (2, 0xB71B00)
      ∧ computePeriod 48000 357913 = (10, 0xFFFFD3) ∧ computePeriod 48000 357914 = (10, 0xFFFFFF) := by decide

/-- Vectors P23, P24, P27, P28, P30, P31, P33, P34, P35. -/
theorem test_computePeriod_edges :
    computePeriod 1 0xFFFFFE = (0, 0xFFFFFE) ∧ computePeriod 1 0xFFFFFF = (1, 0x7FFFFF)
      ∧ computePeriod 1 0x1FFFFFE = (2, 0x7FFFFF) ∧ computePeriod 1 0xFFFFFFFF = (9, 0x7FFFFF)
      ∧ computePeriod 1024 0xFFFFFE = (10, 0xFFFFFE) ∧ computePeriod 1024 0xFFFFFF = (10, 0xFFFFFF)
      ∧ computePeriod 3 0xFFFFFFFF = (10, 0xBFFFFF) ∧ computePeriod 4 0xFFFFFFFF = (10, 0xFFFFFF)
      ∧ computePeriod 0xFFFFFFFF 0xFFFFFFFF = (10, 0xFFFFFF) := by decide

/-- R188, u1: with ARMED = 0 the setup runs, with ARMED = 1 its rows do nothing. -/
theorem test_tickrun_setup_guard :
    (after (exec .tickrun (atStep .tickrun 1))).map (fun t => t.sys.timerClk) = some true
      ∧ (after (exec .tickrun { armedState with sys := State.reset.sys, seq := (atStep .tickrun 1).seq })).map
        (fun t => (t.sys.timerClk, t.seq.step)) = some (false, 2) := by decide

/-- R188, u3: 1 on the first invocation, 0 afterwards. -/
theorem test_tickrun_first_indicator :
    (after (exec .tickrun (atStep .tickrun 22))).map (fun t => (t.regs.res0.value, t.tick.started)) = some (1, true)
      ∧ (after (exec .tickrun { armedState with seq := (atStep .tickrun 22).seq })).map
        (fun t => (t.regs.res0.value, t.seq.busy)) = some (0, false) := by decide

/-- Vectors H2, H7. -/
theorem test_ticktake :
    (after (exec .ticktake { atStep .ticktake 1 with tickPend := true })).map
        (fun t => (t.regs.res0.value, t.tickPend)) = some (1, false)
      ∧ (after (exec .ticktake (atStep .ticktake 1))).map (fun t => t.regs.res0.value) = some 0 := by decide

/-! ### Host window, interrupt, environment -/

/-- STATUS of program G2: ARMED and STARTED, then TICKPEND; TCFG of R185's example. -/
theorem test_status_and_tcfg :
    armedState.statusWord = 0x0000000C ∧ State.statusWord { armedState with tickPend := true } = 0x0000000E
      ∧ State.tcfgWord { armedState with tick := { armedState.tick with divShift := 2, top := 0xB71B00 } } = 0x02B71B00 := by
  decide

/-- Vector E15: a word written while BUSY = 1 sets CMDERR and leaves the command in progress. -/
theorem test_cmd_while_busy :
    ((readPolling.offerCommand 0x32).cmdErr, (readPolling.offerCommand 0x32).seq) = (true, readPolling.seq) := by decide

/-- A format P command runs from reset: it takes the bits ARG0 holds at reset (log entry 3, against vector E16). -/
theorem test_tickcomp_accepted_after_reset :
    ((State.reset.offerCommand 0x30).seq.busy, (State.reset.offerCommand 0x30).current, (State.reset.offerCommand 0x30).seq.lArg)
      = (true, .tickcomp, 0) := by decide

/-- R76: offset 0x1C is refused, and so is a word below the window's end read two bytes wide. -/
theorem test_window_refusals :
    refusalOf (State.reset.hostAccess (.read (Config.retickBase + 0x1C) 4)) = some .accessNotAdmitted
      ∧ refusalOf (State.reset.hostAccess (.read (Config.retickBase + 0x18) 2)) = some .accessNotAdmitted := by
  constructor <;> simp [refusalOf, State.hostAccess, State.hostRead, admitted_base_add, offTcfg]

/-- Vector E5: the accepted operands. -/
theorem test_accept_adcread :
    (after (State.reset.hostAccess (.write Config.retickBase 4 0x00011F12))).map
      (fun t => (t.seq.cur, t.seq.step, t.seq.busy, t.seq.lCh, t.seq.lRef)) = some (.adcread, 1, true, 0x1F, true) := by
  rw [State.hostAccess, hostWrite_cmd]
  decide

/-- Vector H1, its first and last rows. -/
theorem test_handler_rows :
    (State.handlerStep { inHandler .clearPending armedState with ic := ⟨true, true, .lowest⟩ }).ic.pending = false
      ∧ ((inHandler .setTick armedState).handlerStep).tickPend = true
      ∧ ((inHandler .setTick armedState).handlerStep).irq.active = false := by decide

/-- Vector H5: a masked interrupt starts no run. -/
theorem test_no_run_while_masked :
    (State.tryEnterHandler { State.reset with ic := ⟨true, false, .other⟩ }).irq.active = false := by decide

/-- Vectors K1, K5, K6 at their last tick; with INTEN = 0 the match leaves IC.PENDING. -/
theorem test_divided_tick :
    ((counting 0 0).envStep .timerTick).ic.pending = true ∧ ((counting 4 5).envStep .timerTick).timer.count = 5
      ∧ ((counting 5 5).envStep .timerTick).timer.count = 0
      ∧ ((counting 5 5).envStep .timerTick).timer.matchFlag = true := by decide

/-- R70: the draw of the peripheral reset. -/
theorem test_peripheral_reset_draws :
    (State.envStep (.adcReset someDraw) { State.reset with adc := { adcDone with swrst := true, enable := true } }).adc
      = Adc.resetWith someDraw := by decide

/-- The first step after reset of a placed word. -/
theorem test_placed_ticktake :
    (after (step (State.reset.withFetchWord 32 0x32))).map (fun t => t.regs.res0) = some ⟨0, true⟩ := by decide

/-! ### Witnesses: states and operands that meet the hypotheses of the obligations -/

theorem witness_DecodeOfEncodeIsTheCommand : (Instr.adcread 31 true).wellFormed = true := by decide
theorem witness_EncodeOfDecodeIsTheWord : decodeWord 0x00011F12 = .ok (.adcread 31 true) := by rfl

/-- Busy; idle with an illegal word; idle with a format P word, ARG0 without a value and with one; idle with format A. -/
theorem witness_CommandWordsAreAcceptedOrDropped :
    (∃ s : State, s.world.sched = call 0x10 :: [] ∧ s.hostCanStep = true ∧ s.seq.busy = true)
      ∧ (∃ s : State, s.world.sched = call 0x13 :: [] ∧ s.hostCanStep = true ∧ s.seq.busy = false
          ∧ ∀ i, decodeWord 0x13 ≠ .ok i)
      ∧ (∃ s : State, s.world.sched = call 0x22 :: [] ∧ s.hostCanStep = true ∧ s.seq.busy = false
          ∧ decodeWord 0x22 = .ok .tempconv ∧ s.regs.arg0.held = false)
      ∧ (∃ s : State, s.world.sched = call 0x22 :: [] ∧ s.hostCanStep = true ∧ s.seq.busy = false
          ∧ decodeWord 0x22 = .ok .tempconv ∧ s.regs.arg0.held = true)
      ∧ (∃ s : State, s.world.sched = call 0x00011F12 :: [] ∧ s.hostCanStep = true ∧ s.seq.busy = false
          ∧ decodeWord 0x00011F12 = .ok (.adcread 31 true)) :=
  ⟨⟨withTurns [call 0x10] (atStep .adcread 15), rfl, rfl, rfl⟩,
    ⟨withTurns [call 0x13] State.reset, rfl, rfl, rfl, by intro i h; cases h⟩,
    ⟨withTurns [call 0x22] State.reset, rfl, rfl, rfl, rfl, rfl⟩,
    ⟨withTurns [call 0x22] (withArg 7 State.reset), rfl, rfl, rfl, rfl, rfl⟩,
    ⟨withTurns [call 0x00011F12] State.reset, rfl, rfl, rfl, rfl⟩⟩

theorem witness_BlockTurnRunsTheLatchedCommand :
    ((atStep .tickrun 5).irq.active = false ∧ (atStep .tickrun 5).seq.busy = true ∧ (atStep .tickrun 5).world.sched = [])
      ∧ ((withTurns [.block] (atStep .tickrun 5)).irq.active = false
        ∧ (withTurns [.block] (atStep .tickrun 5)).seq.busy = true
        ∧ (withTurns [.block] (atStep .tickrun 5)).world.sched = .block :: [])
      ∧ (Instr.adcread 31 true).wellFormed = true := by decide

theorem witness_WorkedEncodings : State.reset.seq.busy = false := rfl

theorem witness_SourceMidpointScenario :
    (convAt 0x00055019 0x7D03E800 24000).seq.step = 3 ∧ (convAt 0x00055019 0x7D03E800 24000).seq.t0 = 0x00055019
      ∧ (convAt 0x00055019 0x7D03E800 24000).seq.t1 = 0x7D03E800
      ∧ (convAt 0x00055019 0x7D03E800 24000).seq.lArg = 24000 := by decide

theorem witness_PlacedWordIsRunNext : decodeTableWord 32 0x00010512 = some (.adcread 5 true) := by decide

theorem witness_WindowReadsReturnTheRegisters :
    State.reset.seq.busy = false ∧ (State.setRes1 9 (State.setRes0 8 (withArg 7 State.reset))).seq.busy = false := by decide

/-- A narrow access, a misaligned one, offset 0x1C, an address above it; the two ends of the window while busy. -/
theorem witness_WindowRefusesOddAndBusyAccesses :
    ((2 : Nat) ≠ 4) ∧ (Config.retickBase + 0x1B) % 4 ≠ 0 ∧ Config.retickBase + 0x1C ≤ Config.retickBase + 0x1C
      ∧ Config.retickBase + 0x1C ≤ Config.retickBase + 0x20
      ∧ ((Config.retickBase + 0x18) % 4 = 0 ∧ Config.retickBase ≤ Config.retickBase + 0x18
          ∧ Config.retickBase + 0x18 < Config.retickBase + 0x1C ∧ Config.retickBase + 0x18 ≠ Config.retickBase + 0x10
          ∧ Config.retickBase + 0x18 ≠ Config.retickBase ∧ (atStep .adcread 15).seq.busy = true)
      ∧ (Config.retickBase % 4 = 0 ∧ Config.retickBase < Config.retickBase + 0x1C
          ∧ Config.retickBase ≠ Config.retickBase + 0x10) := by
  have := retickBase_aligned
  refine ⟨by decide, ?_, ?_, ?_, ⟨?_, ?_, ?_, ?_, ?_, rfl⟩, ?_, ?_, ?_⟩ <;> omega

theorem witness_WindowWritesReachArg0Alone : State.reset.seq.busy = false ∧ 0x18 ∈ [0x08, 0x0C, 0x10, 0x14, 0x18] := by
  decide

theorem witness_HostWaitsAndIsWoken :
    (∃ s : State, s.world.sched = .host .wait :: [] ∧ s.irq.active = true)
      ∧ (∃ s : State, s.world.sched = call 0x32 :: [] ∧ s.world.hostWaiting = true)
      ∧ (∃ s : State, s.world.sched = .host .wait :: [] ∧ s.irq.active = false ∧ s.world.hostWaiting = false)
      ∧ (∃ s : State, s.world.sched = .wake :: [])
      ∧ (∃ s : State, s.world.sched = .block :: [] ∧ s.irq.active = true ∧ s.irq.istep = .setTick) :=
  ⟨⟨withTurns [.host .wait] (inHandler .setTick State.reset), rfl, rfl⟩,
    ⟨withTurns [call 0x32] (State.reset.setWaiting true), rfl, rfl⟩,
    ⟨withTurns [.host .wait] State.reset, rfl, rfl, rfl⟩,
    ⟨withTurns [.wake] State.reset, rfl⟩,
    ⟨withTurns [.block] (inHandler .setTick State.reset), rfl, rfl, rfl⟩⟩

theorem witness_PeripheralWritesTakeEffectAtOnce : readPolling.adc.enable = true ∧ State.reset.adc.enable = false := by
  decide

theorem witness_EnvironmentSyncAndPeripheralReset :
    State.reset.adc.swrst = false
      ∧ State.adc { State.reset with adc := { adcDone with swrst := true } } = { adcDone with swrst := true } := by decide

theorem witness_ConversionsCompleteWithAnySample :
    (readPolling.adc.converting = true ∧ readPolling.adc.enable = true) ∧ State.reset.adc.converting = false := by decide

/-- The timer runs at its top, below it, and is off. -/
theorem witness_DividedTickCountsOrMatches :
    ((counting 5 5).timer.enable = true ∧ (counting 5 5).sys.timerClk = true
        ∧ (counting 5 5).timer.mode = .countOnMatch ∧ (counting 5 5).timer.count = (counting 5 5).timer.top)
      ∧ (counting 0xFFFFFF 5).timer.count ≠ (counting 0xFFFFFF 5).timer.top ∧ State.reset.timer.enable = false := by decide

/-- TOP = 0 and the largest TOP, from COUNT = 0. -/
theorem witness_MatchComesAfterTopPlusOneTicks :
    ((counting 0 0).timerRuns = true ∧ (counting 0 0).timer.count = 0)
      ∧ ((counting 0 0xFFFFFF).timerRuns = true ∧ (counting 0 0xFFFFFF).timer.count = 0) := by decide

/-- STEP can be any index: the hypothesis of every row of the step tables (AdcresetStepTable, ConversionStepTable,
InitStepTables, SampleIsReturnedInRes0, TickcompReturnsShiftAndTop, TickrunStepTable, TicktakeReadsAndClears). -/
theorem witness_step_tables (c : Opcode) (k : Nat) : (atStep c k).seq.step = k := rfl

theorem witness_ConversionStepTable : (31 : Nat) < 32 := by decide

theorem witness_ReturnedSampleIsThisConversions :
    AdcInv readDone ∧ readDone.seq.busy = true ∧ readDone.seq.cur = .adcread ∧ readDone.seq.step = 21 := by
  unfold AdcInv atResetPoll
  decide

theorem witness_AdcresetCallCompletes :
    ∃ s : State, idle s ∧ s.world.sched = call 0x10 :: (resetTurns someDraw ++ [.block] ++ []) :=
  ⟨withTurns (call 0x10 :: (resetTurns someDraw ++ [.block] ++ [])) State.reset, ⟨rfl, rfl⟩, rfl⟩

theorem witness_InitCallsComplete :
    (∃ s : State, idle s ∧ s.world.sched = call 0x11 :: ([.block, .block] ++ resetTurns someDraw ++ pairs .adc 3
        ++ conversionTurns 0x1234 ++ [.block] ++ []))
      ∧ (∃ s : State, idle s ∧ s.world.sched = call 0x20 :: ([.block, .block, .block] ++ resetTurns someDraw
        ++ pairs .adc 3 ++ conversionTurns 0x1234 ++ [.block] ++ [])) :=
  ⟨⟨withTurns _ State.reset, ⟨rfl, rfl⟩, rfl⟩, ⟨withTurns _ State.reset, ⟨rfl, rfl⟩, rfl⟩⟩

theorem witness_ReadCallsReturnTheSample :
    (∃ s : State, idle s ∧ s.world.sched = call (encode (.adcread (31#5).toNat false))
        :: (conversionTurns 0xFFFF ++ [.block] ++ []))
      ∧ (∃ s : State, idle s ∧ s.world.sched = call 0x21 :: (conversionTurns 0x5DC0 ++ [.block] ++ [])) :=
  ⟨⟨withTurns _ State.reset, ⟨rfl, rfl⟩, rfl⟩, ⟨withTurns _ State.reset, ⟨rfl, rfl⟩, rfl⟩⟩

/-- The run that takes the block's turn for ever at c8. -/
theorem witness_MissingReadySpinsForever :
    isRun (fun _ => .block) (fun _ => readPolling) ∧ readPolling.seq.busy = true ∧ convPos readPolling = 15
      ∧ readPolling.adc.ready = false :=
  ⟨fun _ => rfl, rfl, rfl, rfl⟩

theorem witness_TempconvStepTable :
    (atStep .tempconv 1).seq.step = 1 ∧ (atStep .tempconv 2).seq.step = 2
      ∧ (unpack (convAt 0x00055019 0x7D03E800 0).seq.t0 (convAt 0x00055019 0x7D03E800 0).seq.t1).hotCode
        ≠ (unpack (convAt 0x00055019 0x7D03E800 0).seq.t0 (convAt 0x00055019 0x7D03E800 0).seq.t1).roomCode
      ∧ (unpack (convAt 0x00055019 0x3E83E800 0).seq.t0 (convAt 0x00055019 0x3E83E800 0).seq.t1).hotCode
        = (unpack (convAt 0x00055019 0x3E83E800 0).seq.t0 (convAt 0x00055019 0x3E83E800 0).seq.t1).roomCode := by decide

/-- The memory clauses of TempconvStepTable: readable bytes at both ends, a canonical memory with a listed byte, an
unlisted byte, addresses outside. -/
theorem witness_TempconvStepTable_memory :
    (∃ b0 b1 b2 b3, readByte calW1 (Config.calAddr + 4) = some b0 ∧ readByte calW1 (Config.calAddr + 4 + 1) = some b1
        ∧ readByte calW1 (Config.calAddr + 4 + 2) = some b2 ∧ readByte calW1 (Config.calAddr + 4 + 3) = some b3)
      ∧ memWf [(Config.calAddr + 7, Config.factoryByte (Config.calAddr + 7) + 1)]
      ∧ (∀ c ∈ [(Config.calAddr + 7, (0 : Byte))], c.1 ≠ Config.calAddr)
      ∧ (Config.calAddr + 8 < Config.calAddr ∨ Config.calAddr + 8 ≤ Config.calAddr + 8) := by
  refine ⟨⟨_, _, _, _, readByte_inside _ _ ?_ ?_, readByte_inside _ _ ?_ ?_, readByte_inside _ _ ?_ ?_,
    readByte_inside _ _ ?_ ?_⟩, ⟨?_, ?_⟩, ?_, .inr (Nat.le_refl _)⟩ <;> simp [calEnd, risingFrom, Nat.add_assoc]

/-- A next state of TEMPCONV at v3 with equal codes, CALERR clear before it. -/
theorem witness_CalerrIsRaisedByEqualCodesAlone :
    (∃ t, exec .tempconv (convAt 0x00055019 0x3E83E800 0) = .next t)
      ∧ (convAt 0x00055019 0x3E83E800 0).calErr = false ∧ (convAt 0x00055019 0x3E83E800 0).seq.step = 3
      ∧ (unpack 0x00055019 0x3E83E800).hotCode = (unpack 0x00055019 0x3E83E800).roomCode :=
  ⟨⟨_, rfl⟩, rfl, rfl, by decide⟩

/-- The least distance of two codes, 16 (vector W6). -/
theorem witness_InterpolationFitsThirtyTwoBits :
    (unpack 0x00FFF000 0x00100000).hotCode ≠ (unpack 0x00FFF000 0x00100000).roomCode := by decide

theorem witness_InterpolationEndpointsAreExact : (unpack 0 0x00100000).hotCode ≠ (unpack 0 0x00100000).roomCode := by
  decide

/-- Rising and strict, rising and flat, falling calibrations. -/
theorem witness_InterpolationIsMonotone :
    ((1000 : BitVec 16).toNat < (2000 : BitVec 16).toNat ∧ 25000 ≤ 85000)
      ∧ ((0 : BitVec 16).toNat < (65535 : BitVec 16).toNat ∧ 0 ≤ 256500 ∧ (100 : Int) - 0 < (65535 : Int) - 0)
      ∧ ((0 : BitVec 16).toNat < (1 : BitVec 16).toNat ∧ 0 < 256500) := by decide

/-- A least shift of 0 and of 10, and the threshold of saturation. -/
theorem witness_ComputePeriodTakesTheLeastShift :
    ((1 * 0xFFFFFE) >>> 0 < 0xFFFFFF)
      ∧ ((1024 * 0xFFFFFE) >>> 10 < 0xFFFFFF ∧ ∀ j, j < 10 → 0xFFFFFF ≤ (1024 * 0xFFFFFE) >>> j)
      ∧ (∀ k, k ≤ 10 → 0xFFFFFF ≤ (1024 * 0xFFFFFF) >>> k) ∧ 0x3FFFFFC00 ≤ 1024 * 0xFFFFFF := by decide

theorem witness_ComputePeriodProperties :
    (1024 : Word).toNat * (0xFFFFFE : Word).toNat < 0x3FFFFFC00 ∧ 1 ≤ (computePeriod 1024 0xFFFFFE).1.toNat
      ∧ (0xFFFFFE : Word).toNat ≤ (0xFFFFFF : Word).toNat := by decide

theorem witness_TickrunCallCompletes :
    (∃ s : State, idle s
        ∧ s.world.sched = call 0x31 :: ([.block] ++ pairs .timer 3 ++ [.block, .block, .block] ++ pairs .timer 1 ++ [.block]
          ++ pairs .timer 4 ++ [.block] ++ [])
        ∧ s.tick.armed = false)
      ∧ (∃ s : State, idle s
        ∧ s.world.sched = call 0x31 :: ([.block] ++ pairs .timer 3 ++ [.block, .block, .block] ++ pairs .timer 1 ++ [.block]
          ++ pairs .timer 4 ++ [.block] ++ [])
        ∧ s.tick.armed = true ∧ s.timer.mode = .countOnMatch ∧ s.timer.intEn = true ∧ s.ic.enable = true
        ∧ s.ic.prio = .lowest ∧ s.sys.timerClk = true) :=
  ⟨⟨withTurns _ State.reset, ⟨rfl, rfl⟩, rfl, rfl⟩,
    ⟨withTurns _ (withArg 1000 armedState), ⟨rfl, rfl⟩, rfl, rfl, rfl, rfl, rfl, rfl, rfl⟩⟩

theorem witness_HandledTickIsTakenOnce :
    ∃ s : State, s.irq.active = true ∧ s.irq.istep = .setTick ∧ s.seq.busy = false
      ∧ s.world.sched = [.block, call 0x32, .block, call 0x32, .block] ++ [] :=
  ⟨withTurns [.block, call 0x32, .block, call 0x32, .block] (inHandler .setTick armedState), rfl, rfl, rfl, rfl⟩

theorem witness_HandlerEntryConditions :
    (∃ s : State, s.world.sched = .irqStart :: [] ∧ s.ic.pending = true ∧ s.ic.enable = true ∧ s.irq.active = false)
      ∧ (∃ s : State, s.world.sched = .irqStart :: [] ∧ s.ic.pending = true ∧ s.ic.enable = false)
      ∧ (∃ s : State, s.world.sched = .irqStart :: [] ∧ s.irq.active = true) :=
  ⟨⟨withTurns [.irqStart] { armedState with ic := ⟨true, true, .lowest⟩ }, rfl, rfl, rfl, rfl⟩,
    ⟨withTurns [.irqStart] { armedState with ic := ⟨true, false, .lowest⟩ }, rfl, rfl, rfl⟩,
    ⟨withTurns [.irqStart] (inHandler .syncMatch armedState), rfl, rfl⟩⟩

theorem witness_HandlerStepTable :
    (inHandler .clearPending armedState).irq.istep = .clearPending
      ∧ (inHandler .clearMatch armedState).irq.istep = .clearMatch
      ∧ (inHandler .syncMatch armedState).irq.istep = .syncMatch ∧ armedState.timer.syncBusy = false
      ∧ (inHandler .setTick armedState).irq.istep = .setTick
      ∧ (armedState.setSyncBusy .timer true).timer.syncBusy = true := by decide

theorem witness_HandlerExcludesHostAndSequencer :
    ∃ s t : State, step s = .next t ∧ s.irq.active = true ∧ s.seq.busy = true
      ∧ (∀ e rest, s.world.sched ≠ .env e :: rest) ∧ (∀ rest, s.world.sched ≠ .reset :: rest) :=
  ⟨inHandler .clearMatch readPolling, _, rfl, rfl, rfl, (by intro _ _ h; cases h), (by intro _ h; cases h)⟩

theorem witness_AdcCommandsFrame :
    (∃ t, exec .adcreset (atStep .adcreset 4) = .next t) ∧ (∃ t, exec .adcinit (atStep .adcinit 1) = .next t)
      ∧ (∃ t, exec .tempinit (atStep .tempinit 35) = .next t) ∧ (∃ t, exec .tempraw (atStep .tempraw 21) = .next t)
      ∧ (∃ t, exec (.adcread 5 true) readDone = .next t) :=
  ⟨⟨_, rfl⟩, ⟨_, rfl⟩, ⟨_, rfl⟩, ⟨_, rfl⟩, ⟨_, rfl⟩⟩

theorem witness_ArithmeticCommandsFrame :
    (∃ t, exec .tempconv (convAt 0x00055019 0x7D03E800 0) = .next t) ∧ (∃ t, exec .tickcomp (atStep .tickcomp 1) = .next t)
      ∧ (∃ t, exec .ticktake (atStep .ticktake 1) = .next t) :=
  ⟨⟨_, rfl⟩, ⟨_, rfl⟩, ⟨_, rfl⟩⟩

theorem witness_TickrunFrame :
    (∃ t, exec .tickrun (atStep .tickrun 22) = .next t)
      ∧ (∃ t, exec .tickrun { armedState with seq := (atStep .tickrun 4).seq } = .next t) :=
  ⟨⟨_, rfl⟩, ⟨_, rfl⟩⟩

theorem witness_ResetValues : (withTurns [.reset] readPolling).world.sched = .reset :: [] := rfl

/-- A TICKRUN at its last row is inside its table. -/
theorem witness_StepStaysInsideTheTable : PosInv (atStep .tickrun 22) ∧ ∃ t, step (atStep .tickrun 22) = .next t :=
  ⟨by unfold PosInv; decide, _, rfl⟩

/-- The block armed and started, the arm sequence running again. -/
theorem witness_TickInvariantIsKept :
    ∃ s t : State, TickInv s ∧ s.tick.started = true ∧ s.seq.step = 16 ∧ step s = .next t :=
  ⟨{ armedState with seq := (atStep .tickrun 16).seq }, _,
    ⟨by decide, fun _ => ⟨(Nat.zero_shiftRight 0).symm, by decide⟩, fun _ => rfl, fun _ _ _ => rfl⟩, rfl, rfl, rfl⟩

theorem witness_AdcInvariantIsKept : AdcInv readPolling ∧ ∃ t, step readPolling = .next t :=
  ⟨by unfold AdcInv atResetPoll; decide, _, rfl⟩

theorem witness_RuleThirtyFourFollows : TickInv State.reset ∧ AdcInv State.reset :=
  ⟨⟨by decide, fun _ => ⟨(Nat.zero_shiftRight 0).symm, by decide⟩, by decide, by decide⟩,
    by unfold AdcInv atResetPoll; decide⟩

theorem witness_NoInterruptBeforeArming :
    (QuietInv (atStep .tickrun 10) ∧ ∃ t, step (atStep .tickrun 10) = .next t) ∧ QuietInv armedState := by
  refine ⟨⟨?_, _, rfl⟩, ?_⟩ <;> (unfold QuietInv; decide)

theorem witness_ArmedTimerMatchesTheState :
    ∃ s t : State, ArmInv s ∧ s.tick.started = true ∧ s.seq.busy = true ∧ step s = .next t :=
  ⟨rearming, _, by unfold ArmInv runPast setupStands; refine ⟨?_, ?_, ?_, ?_, ?_, ?_, ?_, ?_, ?_, ?_, ?_⟩ <;> decide,
    rfl, rfl, rfl⟩

theorem witness_CalibrationWordsNeverChange :
    memWf State.reset.mem ∧ ∃ t, step (withTurns [.reset] { State.reset with mem := calW1 }) = .next t :=
  ⟨⟨rfl, by intro c h; cases h⟩, _, rfl⟩

/-- Every sticky bit set, and a turn that is not a reset. -/
theorem witness_StickyBitsAreClearedByResetAlone :
    ∃ s t : State, step s = .next t ∧ (∀ rest, s.world.sched ≠ .reset :: rest) ∧ s.cmdErr = true ∧ s.calErr = true
      ∧ s.tick.armed = true ∧ s.tick.started = true :=
  ⟨{ armedState with cmdErr := true, calErr := true }, _, rfl, (by intro _ h; cases h), rfl, rfl, rfl, rfl⟩

theorem witness_TickpendHasOneProducerAndOneConsumer :
    (∃ s t : State, step s = .next t ∧ (∀ rest, s.world.sched ≠ .reset :: rest) ∧ s.tickPend = false
        ∧ t.tickPend = true)
      ∧ (∃ s t : State, step s = .next t ∧ (∀ rest, s.world.sched ≠ .reset :: rest) ∧ s.tickPend = true
        ∧ t.tickPend = false) :=
  ⟨⟨inHandler .setTick armedState, _, rfl, (by intro _ h; cases h), rfl, rfl⟩,
    ⟨{ atStep .ticktake 1 with tickPend := true }, _, rfl, (by intro _ h; cases h), rfl, rfl⟩⟩

theorem witness_TickTimerStateIsTickrunsAlone :
    ∃ s t : State, step s = .next t ∧ (∀ rest, s.world.sched ≠ .reset :: rest) ∧ t.tick ≠ s.tick :=
  ⟨atStep .tickrun 10, _, rfl, (by intro _ h; cases h), by decide⟩

/-- The second clause: the block's turn is not the host's. -/
theorem witness_HostRegistersReachTheHostAndLArgAlone_block :
    ∀ a rest, (withTurns [.block] (atStep .tickcomp 1)).world.sched ≠ .host a :: rest := by
  intro a rest h
  cases h

/-- The third clause: a TICKCOMP offered to two states that differ in ARG0 latches two operands. -/
theorem witness_HostRegistersReachTheHostAndLArgAlone_latch :
    ∃ (s t t' : State) (g : HostRegs), step s = .next t ∧ step (withRegs g s) = .next t' ∧ t.seq.lArg ≠ t'.seq.lArg :=
  ⟨withTurns [call 0x30] State.reset, State.reset.offerCommand 0x30, (withArg 7 State.reset).offerCommand 0x30,
    (withArg 7 State.reset).regs, hostWrite_cmd State.reset 0x30, hostWrite_cmd (withArg 7 State.reset) 0x30, by decide⟩

/-- A command at the ready poll that nothing releases is a hang. -/
theorem witness_hangs : hangs (fun _ => readPolling) := ⟨0, .inl fun _ _ => ⟨rfl, rfl⟩⟩

end Sys2Proof.Tests
end

/-! The ready poll c8 of `ADC_CONV_SEQ` (00_scope.md rules R9, R11, 40_adc.md rule R132): what each agent can
change while the poll holds, and that only ENV-CONV or a system reset ends it. -/

namespace Sys2Proof.Machine

open Sys2Proof.Safety

/-! ### What the handler and the environment leave unchanged -/

/-- A handler run reaches TICKPEND, its own position, the timer, the controller and the model's own fields alone
(60_exceptions.md rule R226). -/
theorem State.handlerStep_eq (s : State) :
    ∃ p q tm c w, s.handlerStep = { s with tickPend := p, irq := q, timer := tm, ic := c, world := w } := by
  unfold State.handlerStep
  split
  · exact ⟨s.tickPend, _, s.timer, _, s.world, rfl⟩
  · exact ⟨s.tickPend, _, _, s.ic, _, rfl⟩
  · split
    · exact ⟨s.tickPend, s.irq, s.timer, s.ic, s.world, rfl⟩
    · exact ⟨s.tickPend, _, s.timer, s.ic, s.world, rfl⟩
  · exact ⟨_, _, s.timer, s.ic, _, rfl⟩

@[simp] theorem State.handlerStep_seq (s : State) : s.handlerStep.seq = s.seq := by
  obtain ⟨_, _, _, _, _, h⟩ := s.handlerStep_eq
  rw [h]

@[simp] theorem State.handlerStep_regs (s : State) : s.handlerStep.regs = s.regs := by
  obtain ⟨_, _, _, _, _, h⟩ := s.handlerStep_eq
  rw [h]

@[simp] theorem State.handlerStep_adc (s : State) : s.handlerStep.adc = s.adc := by
  obtain ⟨_, _, _, _, _, h⟩ := s.handlerStep_eq
  rw [h]

/-- A divided tick reaches the timer and the controller alone (60_exceptions.md rule R232). -/
theorem State.divTick_eq (s : State) : ∃ tm c, s.divTick = { s with timer := tm, ic := c } := by
  unfold State.divTick
  split
  · exact ⟨_, _, rfl⟩
  · exact ⟨_, s.ic, rfl⟩

/-- The environment reaches the ADC, the timer and the controller alone (20_memory.md rules R69, R70, R72). -/
theorem State.envStep_eq (e : EnvStep) (s : State) :
    ∃ a tm c, s.envStep e = { s with adc := a, timer := tm, ic := c } := by
  unfold State.envStep
  split
  · rename_i p
    cases p
    · exact ⟨_, s.timer, s.ic, rfl⟩
    · exact ⟨s.adc, _, s.ic, rfl⟩
  · split
    · exact ⟨_, s.timer, s.ic, rfl⟩
    · exact ⟨s.adc, s.timer, s.ic, rfl⟩
  · split
    · exact ⟨_, s.timer, s.ic, rfl⟩
    · exact ⟨s.adc, s.timer, s.ic, rfl⟩
  · split
    · obtain ⟨tm, c, h⟩ := s.divTick_eq
      exact ⟨s.adc, tm, c, h⟩
    · exact ⟨s.adc, s.timer, s.ic, rfl⟩

@[simp] theorem State.envStep_seq (e : EnvStep) (s : State) : (s.envStep e).seq = s.seq := by
  obtain ⟨_, _, _, h⟩ := s.envStep_eq e
  rw [h]

@[simp] theorem State.envStep_regs (e : EnvStep) (s : State) : (s.envStep e).regs = s.regs := by
  obtain ⟨_, _, _, h⟩ := s.envStep_eq e
  rw [h]

/-- ENV-CONV is the one step of the environment that raises READY (20_memory.md rule R72). -/
theorem State.envStep_not_ready (e : EnvStep) (s : State) (he : ∀ v, e ≠ .adcConv v) (hr : s.adc.ready = false) :
    (s.envStep e).adc.ready = false := by
  cases e with
  | syncClear p => cases p <;> exact hr
  | adcReset d =>
    simp only [State.envStep]
    split
    · rfl
    · exact hr
  | adcConv v => exact absurd rfl (he v)
  | timerTick =>
    simp only [State.envStep]
    split
    · obtain ⟨_, _, h⟩ := s.divTick_eq
      rw [h]
      exact hr
    · exact hr

/-- While a command is in progress a host access returns a read, drops a word, enters the wait step or does nothing
(20_memory.md rule R76, 30_encoding.md rule R97). -/
theorem hostAccess_cases_of_busy {a : HostAccess} {s t : State} (hb : s.seq.busy = true)
    (h : s.hostAccess a = .next t) :
    (∃ v, t = s.setHostRd v) ∨ t = s.raiseCmdErr ∨ t = s.setWaiting true ∨ t = s := by
  rcases hostAccess_cases h with hread | ⟨hidle, -⟩ | ⟨w, rfl⟩ | hrest
  · exact .inl hread
  · simp [hb] at hidle
  · have hdrop : s.offerCommand w = s.raiseCmdErr := by simp [State.offerCommand, hb]
    exact .inr (.inl hdrop)
  · exact .inr (.inr hrest)

/-! ### The ready poll -/

/-- A command is in progress at c8 and READY is 0. -/
structure AtReadyPoll (s : State) : Prop where
  busy : s.seq.busy = true
  atPoll : convPos s = 15
  notReady : s.adc.ready = false

/-- The position in `ADC_CONV_SEQ` is read from the command sequencer alone. -/
theorem convPos_congr {s t : State} (h : t.seq = s.seq) : convPos t = convPos s := by
  simp only [convPos, h]

/-- At position 15 of `ADC_CONV_SEQ` STEP names the poll of READY in the command's table, whatever the command. -/
theorem tableAt_of_convPos_eq_15 {s : State} (h : convPos s = 15) :
    tableAt (stepTable s.current s) s.seq.step = some .pollReady := by
  unfold convPos at h
  split at h
  · split at h
    · rename_i o ho
      have hstep : s.seq.step = o + 15 := by omega
      rw [hstep, stepTable_conv s.current s o 15 (by rw [opcodeOf_current, ho]) (by decide) (by decide), adcConvSeq_eq]
      rfl
    · cases h
  · cases h

/-- The poll is not enabled while READY is 0: SEQ's turn changes nothing (00_scope.md rule R9). -/
theorem AtReadyPoll.exec_eq {s : State} (h : AtReadyPoll s) : exec s.current s = .next s := by
  rw [exec_eq_microStep]
  exact microStep_of_holds (tableAt_of_convPos_eq_15 h.atPoll) (by simp [MicroOp.run, h.notReady])

theorem AtReadyPoll.commandStuck {s : State} (h : AtReadyPoll s) : commandStuck s := ⟨h.busy, h.exec_eq⟩

/-- `t` follows `s` in a poll that still holds: SEQ has not moved, RES0 is as it was, READY is 0. -/
structure SamePoll (s t : State) : Prop where
  seq : t.seq = s.seq
  res0 : t.regs.res0 = s.regs.res0
  notReady : t.adc.ready = false

theorem SamePoll.refl {s : State} (h : s.adc.ready = false) : SamePoll s s := ⟨rfl, rfl, h⟩

theorem SamePoll.trans {s t u : State} (h : SamePoll s t) (h' : SamePoll t u) : SamePoll s u :=
  ⟨h'.seq.trans h.seq, h'.res0.trans h.res0, h'.notReady⟩

/-- A poll that still holds is at the same poll. -/
theorem SamePoll.atReadyPoll {s t : State} (h : SamePoll s t) (hs : AtReadyPoll s) : AtReadyPoll t :=
  ⟨h.seq ▸ hs.busy, (convPos_congr h.seq).trans hs.atPoll, h.notReady⟩

/-- An access of the host, which reaches neither SEQ nor the ADC while a command is in progress, keeps the poll. -/
theorem AtReadyPoll.samePoll_of_hostAccess {a : HostAccess} {s t : State} (hs : AtReadyPoll s)
    (h : s.hostAccess a = .next t) : SamePoll s t := by
  rcases hostAccess_cases_of_busy hs.busy h with ⟨v, rfl⟩ | rfl | rfl | rfl <;> exact ⟨rfl, rfl, hs.notReady⟩

/-- Every turn but a reset and ENV-CONV keeps the poll: SEQ's own holds, and no other agent reaches SEQ, RES0 or READY. -/
theorem AtReadyPoll.samePoll_of_takeTurn {tn : Turn} {s t : State} (hs : AtReadyPoll s)
    (hreset : tn ≠ .reset) (hconv : ∀ v, tn ≠ .env (.adcConv v)) (h : s.takeTurn tn = .next t) : SamePoll s t := by
  rcases takeTurn_cases h with ⟨-, -, rfl⟩ | ⟨-, -, -, hexec⟩ | ⟨a, -, -, -, hacc⟩ | ⟨-, rfl⟩ | ⟨-, -, rfl⟩
    | ⟨e, rfl, rfl⟩ | ⟨rfl, -⟩ | rfl
  · exact ⟨by simp, by simp, by simpa using hs.notReady⟩
  · rw [hs.exec_eq] at hexec
    cases hexec
    exact .refl hs.notReady
  · exact hs.samePoll_of_hostAccess hacc
  · exact ⟨rfl, rfl, hs.notReady⟩
  · exact ⟨rfl, rfl, hs.notReady⟩
  · have he : ∀ v, e ≠ .adcConv v := fun v hev => hconv v (by rw [hev])
    exact ⟨by simp, by simp, s.envStep_not_ready e he hs.notReady⟩
  · exact absurd rfl hreset
  · exact .refl hs.notReady

/-- A poll that holds goes on along every run without a reset and without ENV-CONV, by induction on the run. -/
theorem AtReadyPoll.samePoll_of_isRun {τ : Nat → Turn} {r : Nat → State} (hrun : isRun τ r)
    (hreset : ∀ n, τ n ≠ .reset) (hconv : ∀ n v, τ n ≠ .env (.adcConv v)) (h0 : AtReadyPoll (r 0)) (n : Nat) :
    SamePoll (r 0) (r n) := by
  induction n with
  | zero => exact .refl h0.notReady
  | succ n ih =>
    have hstep := (ih.atReadyPoll h0).samePoll_of_takeTurn (hreset n) (hconv n) (hrun n)
    exact ih.trans hstep

/-- Settles O26, by induction on the run: the poll is kept by every turn that is no reset and no ENV-CONV, and at the poll
SEQ's turn changes nothing, so the run hangs from its first state on. -/
theorem missingReadySpinsForever : Obligations.MissingReadySpinsForever := by
  intro τ r hrun hreset hconv hbusy hpos hready
  have h0 : AtReadyPoll (r 0) := ⟨hbusy, hpos, hready⟩
  have hkept : ∀ n, SamePoll (r 0) (r n) := h0.samePoll_of_isRun hrun hreset hconv
  constructor
  · intro n
    obtain ⟨hseq, hres0, -⟩ := hkept n
    exact ⟨by rw [hseq, hbusy], by rw [hseq], by rw [hseq], hres0⟩
  · exact ⟨0, .inl fun m _ => ((hkept m).atReadyPoll h0).commandStuck⟩

end Sys2Proof.Machine


/-! One turn of SEQ by the kind of row at STEP, one step of the machine by the turn it takes, and what it needs to be
kept by every step: the rule by which the invariants of SEQ, TickTimerState and the ADC are proved. With it, STEP stays
inside the step table (10_state.md rule R29). -/

namespace Sys2Proof.Machine

open Sys2Proof.Safety

/-! ### The rows of a table: the earlier ones and the last -/

/-- A row of a table is one of its members. -/
theorem mem_of_tableAt {table : List MicroOp} {k : Nat} {op : MicroOp} (h : tableAt table k = some op) :
    op ∈ table := by
  cases k with
  | zero => cases h
  | succ k => exact List.mem_of_getElem? h

/-- A row of a table stands at an index from 1 to the table's length. -/
theorem index_of_tableAt {table : List MicroOp} {k : Nat} {op : MicroOp} (h : tableAt table k = some op) :
    1 ≤ k ∧ k ≤ table.length :=
  (tableAt_isSome_iff table k).1 (by rw [h]; rfl)

/-- The state a command's last row leaves, before STEP advances. -/
def finalState (i : Instr) (s : State) : State :=
  match i with
  | .adcreset => s.finish
  | .adcinit => s.finish
  | .adcread _ _ => (s.setRes0 s.seq.t0).finish
  | .tempinit => s.finish
  | .tempraw => (s.setRes0 s.seq.t0).finish
  | .tempconv => convertStep s
  | .tickcomp => returnPeriod s
  | .tickrun => returnFirst s
  | .ticktake => takeTick s

/-- The rows of a command's table before its last one. -/
def earlierRows (i : Instr) (s : State) : List MicroOp :=
  match i with
  | .adcreset => adcResetSeq s
  | .adcinit => adcInitSeq s
  | .adcread channel ref => adcConvSeq (BitVec.ofNat 5 channel) ref
  | .tempinit => .pwrite (.sysTsensEn true) :: adcInitSeq s
  | .tempraw => adcConvSeq Config.chInternal true
  | .tempconv => [.loadCalw0, .loadCalw1]
  | .tickcomp => []
  | .tickrun => guarded (!s.tick.armed) (tickSetupSeq s) ++ tickArmSeq s.seq.lArg s
  | .ticktake => []

theorem stepTable_eq_append (i : Instr) (s : State) :
    stepTable i s = earlierRows i s ++ [.compute (finalState i s)] := by
  cases i <;> rfl

theorem earlierRows_length (i : Instr) (s : State) :
    (earlierRows i s).length + 1 = tableLength (opcodeOf i) := by
  rw [← stepTable_length i s, stepTable_eq_append, List.length_append, List.length_singleton]

/-- The last row of every table computes the command's final state. -/
theorem tableAt_last (i : Instr) (s : State) :
    tableAt (stepTable i s) (tableLength (opcodeOf i)) = some (.compute (finalState i s)) := by
  rw [← earlierRows_length i s, stepTable_eq_append]
  exact tableAt_append_right _ _ 1 le_rfl

theorem tableAt_earlier (i : Instr) (s : State) (k : Nat) (h1 : 1 ≤ k) (h2 : k < tableLength (opcodeOf i)) :
    tableAt (stepTable i s) k = tableAt (earlierRows i s) k := by
  have := earlierRows_length i s
  rw [stepTable_eq_append, tableAt_append_left _ _ _ (by omega) h1]

/-- An internal computation, which may write any state element; every other micro-operation reaches the peripherals and
the temporaries alone. -/
def MicroOp.isCompute : MicroOp → Bool
  | .compute _ => true
  | _ => false

theorem eq_compute_of_isCompute {op : MicroOp} (h : op.isCompute = true) : ∃ v, op = .compute v := by
  cases op with
  | compute v => exact ⟨v, rfl⟩
  | _ => cases h

/-- A wait step that completes changes nothing. -/
theorem eq_of_waitFor_completes {c : Bool} {s u : State} (h : waitFor c s = .completes u) : u = s := by
  cases c <;> cases h
  rfl

/-- What a micro-operation that is no internal computation reaches: the peripherals, the temporaries and the model's own
fields. -/
theorem MicroOp.run_eq_of_plain {op : MicroOp} {s u : State} (hplain : op.isCompute = false)
    (h : op.run s = .completes u) :
    ∃ a tm c f w t0 t1, u = { s with adc := a, timer := tm, ic := c, sys := f, world := w,
                                     seq := { s.seq with t0 := t0, t1 := t1 } } := by
  cases op with
  | nop => cases h; exact ⟨_, _, _, _, _, _, _, rfl⟩
  | pwrite w =>
    cases h
    refine ⟨(s.pwrite w).adc, (s.pwrite w).timer, s.ic.store w, s.sys.store w, (s.pwrite w).world, s.seq.t0,
      s.seq.t1, ?_⟩
    cases w <;> rfl
  | syncWait p => exact ⟨_, _, _, _, _, _, _, eq_of_waitFor_completes h⟩
  | pollReset => exact ⟨_, _, _, _, _, _, _, eq_of_waitFor_completes h⟩
  | pollReady => exact ⟨_, _, _, _, _, _, _, eq_of_waitFor_completes h⟩
  | readEnable => cases h; exact ⟨s.adc, s.timer, s.ic, s.sys, s.world, _, s.seq.t1, rfl⟩
  | readResult => cases h; exact ⟨s.adc, s.timer, s.ic, s.sys, s.world, _, s.seq.t1, rfl⟩
  | loadCalw0 => cases h; exact ⟨s.adc, s.timer, s.ic, s.sys, s.world, _, s.seq.t1, rfl⟩
  | loadCalw1 => cases h; exact ⟨s.adc, s.timer, s.ic, s.sys, s.world, s.seq.t0, _, rfl⟩
  | compute t => cases hplain

/-- Only TICKRUN computes before its last row. -/
theorem earlierRows_plain (i : Instr) (s : State) (hi : i ≠ .tickrun) :
    (earlierRows i s).all (fun op => !op.isCompute) = true := by
  have hreset : (adcResetSeq s).all (fun op => !op.isCompute) = true := by
    unfold adcResetSeq
    cases s.seq.t0 == 1 <;> rfl
  have hinit : (adcInitSeq s).all (fun op => !op.isCompute) = true := by
    simp only [adcInitSeq, List.all_append, hreset]
    rfl
  cases i with
  | adcreset => exact hreset
  | adcinit => exact hinit
  | tempinit => exact hinit
  | tickrun => exact absurd rfl hi
  | _ => rfl

/-- The two computations of TICKRUN before its last row: s7, where ARMED was 0, and a2 (42_tick.md rules R187, R190). -/
theorem tickrun_compute {s u : State} {k : Nat} (h : tableAt (earlierRows .tickrun s) k = some (.compute u)) :
    (k = 10 ∧ s.tick.armed = false ∧ u = s.setArmed) ∨ (k = 13 ∧ u = s.applyPeriod s.seq.lArg) := by
  obtain ⟨h1, h2⟩ := index_of_tableAt h
  have hlen : (earlierRows .tickrun s).length = 21 := Nat.succ.inj (earlierRows_length .tickrun s)
  rw [hlen] at h2
  cases ha : s.tick.armed <;>
    simp [earlierRows, ha, tickSetupSeq, tickArmSeq, timerS, pwriteS] at h <;>
    interval_cases k <;> simp [tableAt] at h <;> simp [h]

/-- A row before the last that computes is TICKRUN's s7 or a2. -/
theorem earlierRows_compute {i : Instr} {s u : State} {k : Nat} (h : tableAt (earlierRows i s) k = some (.compute u)) :
    i = .tickrun ∧
      ((k = 10 ∧ s.tick.armed = false ∧ u = s.setArmed) ∨ (k = 13 ∧ u = s.applyPeriod s.seq.lArg)) := by
  by_cases hi : i = .tickrun
  · subst hi
    exact ⟨rfl, tickrun_compute h⟩
  · have hplain := List.all_eq_true.1 (earlierRows_plain i s hi) _ (mem_of_tableAt h)
    cases hplain

/-- One turn of SEQ on the command `i`: the state it leads to, by the kind of row at STEP. -/
inductive SeqTurn (i : Instr) (s : State) : State → Prop
  /-- The command's last row. -/
  | last (hstep : s.seq.step = tableLength (opcodeOf i)) : SeqTurn i s (finalState i s).advance
  /-- TICKRUN's row s7. -/
  | arm (hi : i = .tickrun) (hstep : s.seq.step = 10) (harmed : s.tick.armed = false) :
      SeqTurn i s s.setArmed.advance
  /-- TICKRUN's row a2. -/
  | period (hi : i = .tickrun) (hstep : s.seq.step = 13) : SeqTurn i s (s.applyPeriod s.seq.lArg).advance
  /-- An earlier row that reaches the peripherals and the temporaries alone. -/
  | plain {op : MicroOp} {u : State} (hlt : s.seq.step < tableLength (opcodeOf i))
      (hop : tableAt (earlierRows i s) s.seq.step = some op) (hplain : op.isCompute = false)
      (hrun : op.run s = .completes u) : SeqTurn i s u.advance
  /-- A wait step that is not enabled. -/
  | held : SeqTurn i s s

/-- Everything one turn of SEQ can do, by the kind of row at STEP. -/
theorem seqTurn_of_exec {i : Instr} {s t : State} (h : exec i s = .next t) : SeqTurn i s t := by
  obtain ⟨⟨h1, h2⟩, op, hop, ⟨u, hrun, rfl⟩ | ⟨-, rfl⟩⟩ := exec_cases h
  · rcases h2.eq_or_lt with hlast | hlt
    · rw [hlast, tableAt_last] at hop
      cases hop
      cases hrun
      exact .last hlast
    · rw [tableAt_earlier i s _ h1 hlt] at hop
      cases hc : op.isCompute with
      | false => exact .plain hlt hop hc hrun
      | true =>
        obtain ⟨v, rfl⟩ := eq_compute_of_isCompute hc
        cases hrun
        obtain ⟨rfl, ⟨hk, ha, rfl⟩ | ⟨hk, rfl⟩⟩ := earlierRows_compute hop
        · exact .arm rfl hk ha
        · exact .period rfl hk
  · exact .held

/-- Inside its table no command faults (10_state.md rule R29). -/
theorem exec_not_fault {i : Instr} {s : State} (h1 : 1 ≤ s.seq.step) (h2 : s.seq.step ≤ tableLength (opcodeOf i))
    (f : Fault) : exec i s ≠ .fault f := by
  obtain ⟨op, hop⟩ := Option.isSome_iff_exists.1
    ((tableAt_isSome_iff (stepTable i s) s.seq.step).2 ⟨h1, by rwa [stepTable_length]⟩)
  rw [exec_eq_microStep]
  cases hrun : op.run s with
  | completes t => simp [microStep_of_completes hop hrun]
  | holds => simp [microStep_of_holds hop hrun]

/-! ### The command's final state -/

/-- The last row reaches the host registers, TICKPEND, CALERR, STARTED, BUSY, T0 and the counter of draws alone. -/
theorem finalState_eq (i : Instr) (s : State) :
    ∃ g st p c t0 w, finalState i s =
      { s with regs := g, tick := { s.tick with started := st }, tickPend := p, calErr := c,
               seq := { s.seq with busy := false, t0 := t0 }, world := w } := by
  cases i with
  | tempconv =>
    unfold finalState convertStep
    dsimp only
    split
    · exact ⟨_, s.tick.started, s.tickPend, _, s.seq.t0, _, rfl⟩
    · exact ⟨_, s.tick.started, s.tickPend, s.calErr, s.seq.t0, s.world, rfl⟩
  | tickrun => exact ⟨_, true, s.tickPend, s.calErr, _, s.world, rfl⟩
  | ticktake => exact ⟨_, s.tick.started, false, s.calErr, s.seq.t0, s.world, rfl⟩
  | _ => exact ⟨_, s.tick.started, s.tickPend, s.calErr, s.seq.t0, s.world, rfl⟩

theorem finalState_calErr (i : Instr) (s : State) (h : s.calErr = true) : (finalState i s).calErr = true := by
  cases i with
  | tempconv =>
    unfold finalState convertStep
    dsimp only
    split
    · rfl
    · exact h
  | _ => exact h

theorem finalState_started (i : Instr) (s : State) (h : s.tick.started = true) :
    (finalState i s).tick.started = true := by
  cases i with
  | tempconv =>
    unfold finalState convertStep
    dsimp only
    split <;> exact h
  | tickrun => rfl
  | _ => exact h

/-- Only TICKRUN's last row writes TickTimerState. -/
theorem finalState_tick (i : Instr) (s : State) (hi : i ≠ .tickrun) : (finalState i s).tick = s.tick := by
  cases i with
  | tempconv =>
    unfold finalState convertStep
    dsimp only
    split <;> rfl
  | tickrun => exact absurd rfl hi
  | _ => rfl

/-- Only TICKTAKE's row writes TICKPEND. -/
theorem finalState_tickPend (i : Instr) (s : State) (hi : i ≠ .ticktake) :
    (finalState i s).tickPend = s.tickPend := by
  cases i with
  | tempconv =>
    unfold finalState convertStep
    dsimp only
    split <;> rfl
  | ticktake => exact absurd rfl hi
  | _ => rfl

/-! ### Steps of the machine -/

/-- Every step is the first turn of the schedule, which is used up, or the block's where none is listed; which one, the
schedule alone decides. -/
theorem step_turn (s : State) : ∃ tn ts, (s.world.sched = tn :: ts ∨ s.world.sched = [] ∧ tn = .block)
    ∧ ∀ u : State, u.world.sched = s.world.sched → step u = (u.setSched ts).takeTurn tn := by
  cases hs : s.world.sched with
  | nil =>
    refine ⟨.block, [], .inr ⟨rfl, rfl⟩, fun u hu => ?_⟩
    have hset : u.setSched [] = u := by rw [← hu]; rfl
    rw [hset, step_nil u hu]
    rfl
  | cons tn ts => exact ⟨tn, ts, .inl rfl, fun u hu => step_cons u tn ts hu⟩

/-- The turn a step that answers a next state takes. -/
theorem step_cases {s t : State} (h : step s = .next t) :
    ∃ tn ts, (s.setSched ts).takeTurn tn = .next t
      ∧ (s.world.sched = tn :: ts ∨ s.world.sched = [] ∧ tn = .block) := by
  obtain ⟨tn, ts, hsched, hstep⟩ := step_turn s
  exact ⟨tn, ts, by rw [← hstep s rfl, h], hsched⟩

/-- How a predicate of SEQ, TickTimerState and the ADC is shown to be kept by every step of every agent: by SEQ's turns,
acceptance and the environment, and that it holds after a reset; no other agent reaches these three. -/
structure KeptBySequencer (P : State → Prop) : Prop where
  congr : ∀ {s t : State}, P s → t.seq = s.seq → t.tick = s.tick → t.adc = s.adc → P t
  seqTurn : ∀ {s t : State}, s.seq.busy = true → SeqTurn s.current s t → P s → P t
  accept : ∀ {s : State} (i : Instr), s.seq.busy = false → P s → P (s.accept i)
  env : ∀ {s : State} (e : EnvStep), P s → P (s.envStep e)
  reset : ∀ s : State, P s.systemReset

@[simp] theorem State.handlerStep_tick (s : State) : s.handlerStep.tick = s.tick := by
  obtain ⟨_, _, _, _, _, h⟩ := s.handlerStep_eq
  rw [h]

@[simp] theorem State.envStep_tick (e : EnvStep) (s : State) : (s.envStep e).tick = s.tick := by
  obtain ⟨_, _, _, h⟩ := s.envStep_eq e
  rw [h]

theorem KeptBySequencer.hostAccess {P : State → Prop} (hP : KeptBySequencer P) {a : HostAccess} {s t : State}
    (hs : P s) (h : s.hostAccess a = .next t) : P t := by
  rcases hostAccess_cases h with ⟨v, rfl⟩ | ⟨-, v, rfl⟩ | ⟨w, rfl⟩ | rfl | rfl
  · exact hP.congr hs rfl rfl rfl
  · exact hP.congr hs rfl rfl rfl
  · rcases offerCommand_cases w s with he | ⟨hb, i, -, he⟩ <;> rw [he]
    · exact hP.congr hs rfl rfl rfl
    · exact hP.accept i hb hs
  · exact hP.congr hs rfl rfl rfl
  · exact hs

theorem KeptBySequencer.takeTurn {P : State → Prop} (hP : KeptBySequencer P) {tn : Turn} {s t : State} (hs : P s)
    (h : s.takeTurn tn = .next t) : P t := by
  rcases takeTurn_cases h with ⟨-, -, rfl⟩ | ⟨-, -, hb, hexec⟩ | ⟨a, -, -, -, hacc⟩ | ⟨-, rfl⟩ | ⟨-, -, rfl⟩
    | ⟨e, -, rfl⟩ | ⟨-, rfl⟩ | rfl
  · exact hP.congr hs s.handlerStep_seq s.handlerStep_tick s.handlerStep_adc
  · exact hP.seqTurn hb (seqTurn_of_exec hexec) hs
  · exact hP.hostAccess hs hacc
  · exact hP.congr hs rfl rfl rfl
  · exact hP.congr hs rfl rfl rfl
  · exact hP.env e hs
  · exact hP.reset s
  · exact hs

theorem KeptBySequencer.step {P : State → Prop} (hP : KeptBySequencer P) {s t : State} (hs : P s)
    (h : step s = .next t) : P t := by
  obtain ⟨tn, ts, hturn, -⟩ := step_cases h
  exact hP.takeTurn (hP.congr (t := s.setSched ts) hs rfl rfl rfl) hturn

/-! ### STEP stays inside the table -/

theorem one_le_tableLength (c : Opcode) : 1 ≤ tableLength c := by cases c <;> decide

/-- After the last row BUSY is 0. -/
theorem finalState_busy (i : Instr) (s : State) : (finalState i s).seq.busy = false := by
  obtain ⟨_, _, _, _, _, _, h⟩ := finalState_eq i s
  rw [h]

/-- What one turn of SEQ does to the sequencer: the command ends, or its wait holds, or STEP goes to the next row. -/
theorem SeqTurn.seq_cases {i : Instr} {s t : State} (h : SeqTurn i s t) :
    t.seq.busy = false ∨ t = s ∨ (s.seq.step < tableLength (opcodeOf i)
      ∧ ∃ t0 t1, t.seq = { s.seq with step := s.seq.step + 1, t0 := t0, t1 := t1 }) := by
  cases h with
  | last _ => exact .inl (finalState_busy i s)
  | arm hi hstep _ => exact .inr (.inr ⟨by rw [hi, hstep]; decide, _, _, rfl⟩)
  | period hi hstep => exact .inr (.inr ⟨by rw [hi, hstep]; decide, _, _, rfl⟩)
  | plain hlt _ hplain hrun =>
    obtain ⟨_, _, _, _, _, _, _, rfl⟩ := MicroOp.run_eq_of_plain hplain hrun
    exact .inr (.inr ⟨hlt, _, _, rfl⟩)
  | held => exact .inr (.inl rfl)

theorem posInv_keptBySequencer : KeptBySequencer PosInv where
  congr h hseq _ _ := by simpa only [PosInv, hseq] using h
  seqTurn hb hturn h := by
    rcases hturn.seq_cases with hidle | rfl | ⟨hlt, t0, t1, hseq⟩
    · intro hbusy
      rw [hidle] at hbusy
      cases hbusy
    · exact h
    · rw [opcodeOf_current] at hlt
      intro _
      rw [hseq]
      exact ⟨Nat.succ_le_succ (Nat.zero_le _), hlt⟩
  accept i _ _ := fun _ => ⟨le_rfl, one_le_tableLength _⟩
  env e h := by simpa only [PosInv, State.envStep_seq] using h
  reset s := fun h => by cases h

/-- A host access is answered or refused; none faults (20_memory.md rule R76). -/
theorem hostAccess_not_fault (a : HostAccess) (s : State) (f : Fault) : s.hostAccess a ≠ .fault f := by
  cases a with
  | read addr size =>
    simp only [State.hostAccess, State.hostRead]
    repeat' split
    all_goals simp
  | write addr size v =>
    simp only [State.hostAccess, State.hostWrite]
    repeat' split
    all_goals simp
  | wait => simp [State.hostAccess]

/-- No turn of any agent faults while STEP is inside the table. -/
theorem takeTurn_not_fault {s : State} (h : PosInv s) (tn : Turn) (f : Fault) : s.takeTurn tn ≠ .fault f := by
  cases tn with
  | block =>
    rcases blockTurn_cases s with ⟨-, he⟩ | ⟨-, hb, he⟩ | ⟨-, -, he⟩ <;> simp only [State.takeTurn, he, ne_eq]
    · simp
    · obtain ⟨h1, h2⟩ := h hb
      exact exec_not_fault h1 (by rwa [opcodeOf_current]) f
    · simp
  | host a =>
    simp only [State.takeTurn, State.hostTurn]
    split
    · exact hostAccess_not_fault a s f
    · simp
  | _ => simp [State.takeTurn]

/-- Settles O50: inside the table SEQ's turn finds a row, and `PosInv` is kept by every turn. -/
theorem stepStaysInsideTheTable : Obligations.StepStaysInsideTheTable := by
  intro s hs
  constructor
  · intro f
    obtain ⟨tn, ts, hstep⟩ := step_eq_takeTurn s
    rw [hstep]
    exact takeTurn_not_fault (s := s.setSched ts) hs tn f
  · exact fun t => posInv_keptBySequencer.step hs

end Sys2Proof.Machine


/-! TickTimerState and the single bits: the invariant of 10_state.md rule R34 (i), (iii), (iv), and which turns write
the sticky bits, TICKPEND and TickTimerState. -/

namespace Sys2Proof.Machine

open Sys2Proof.Safety Sys2Proof.Statements

/-! ### TickTimerState -/

/-- The product of two 32-bit words fits the 64 bits of `cycles` (42_tick.md rule R181). -/
theorem cyclesOf_toNat (cpms periodMs : Word) : (cyclesOf cpms periodMs).toNat = cpms.toNat * periodMs.toNat := by
  have hlt : cpms.toNat * periodMs.toNat < 2 ^ 64 :=
    (Nat.mul_lt_mul'' cpms.isLt periodMs.isLt).trans_eq (by norm_num)
  have hc : cpms.toNat < 2 ^ 64 := cpms.isLt.trans (by decide)
  have hp : periodMs.toNat < 2 ^ 64 := periodMs.isLt.trans (by decide)
  simp only [cyclesOf, BitVec.toNat_mul, BitVec.toNat_setWidth, Nat.mod_eq_of_lt hc, Nat.mod_eq_of_lt hp,
    Nat.mod_eq_of_lt hlt]

/-- A shift the search finds is in range and brings the cycles below the bound (42_tick.md rule R182). -/
theorem leastShift_some {cycles : BitVec 64} {k : Nat} (h : leastShift cycles = some k) :
    k ≤ 10 ∧ (cycles >>> k).toNat < 0xFFFFFF := by
  have hmem := List.mem_range.1 (List.mem_of_find?_eq_some h)
  have hfits : shiftFits cycles k = true := List.find?_some h
  exact ⟨Nat.le_of_lt_succ hmem, of_decide_eq_true hfits⟩

/-- `computePeriod` where a shift fits (42_tick.md rule R182). -/
theorem computePeriod_of_some {cpms p : Word} {k : Nat} (h : leastShift (cyclesOf cpms p) = some k) :
    computePeriod cpms p = (BitVec.ofNat 4 k, (cyclesOf cpms p >>> k).setWidth 24) := by
  simp [computePeriod, h]

/-- `computePeriod` where no shift fits (42_tick.md rule R183). -/
theorem computePeriod_of_none {cpms p : Word} (h : leastShift (cyclesOf cpms p) = none) :
    computePeriod cpms p = (10, 0xFFFFFF) := by
  simp [computePeriod, h, Config.shiftMax, Config.counterMax]

/-- R34 (i) and (iii): a shift in range, and a top that is the shifted cycle count of the period and below the bound
unless the pair is the saturated one. -/
def ShiftAndTopOk (cpms periodMs : Word) (shift : BitVec 4) (top : BitVec 24) : Prop :=
  shift.toNat ≤ 10 ∧ (shift.toNat < 10 ∨ top ≠ 0xFFFFFF →
    top.toNat = (cpms.toNat * periodMs.toNat) >>> shift.toNat ∧ top.toNat < 0xFFFFFF)

/-- `computePeriod` answers a shift and a top as R34 asks (42_tick.md rules R182 to R184). -/
theorem computePeriod_ok (cpms p : Word) :
    ShiftAndTopOk cpms p (computePeriod cpms p).1 (computePeriod cpms p).2 := by
  cases hs : leastShift (cyclesOf cpms p) with
  | none =>
    rw [computePeriod_of_none hs]
    exact ⟨le_rfl, fun h => by simp at h⟩
  | some k =>
    rw [computePeriod_of_some hs]
    obtain ⟨hk, hfits⟩ := leastShift_some hs
    rw [BitVec.toNat_ushiftRight, cyclesOf_toNat] at hfits
    have hshift : (BitVec.ofNat 4 k).toNat = k := Nat.mod_eq_of_lt (by omega)
    have htop : ((cyclesOf cpms p >>> k).setWidth 24).toNat = (cpms.toNat * p.toNat) >>> k := by
      rw [BitVec.toNat_setWidth, BitVec.toNat_ushiftRight, cyclesOf_toNat]
      exact Nat.mod_eq_of_lt (hfits.trans (by decide))
    rw [ShiftAndTopOk, hshift, htop]
    exact ⟨hk, fun _ => ⟨rfl, hfits⟩⟩

/-- CUR of a command in progress that the latches name. -/
theorem cur_of_current {s : State} {i : Instr} (h : s.current = i) : s.seq.cur = opcodeOf i := by
  rw [← h, opcodeOf_current]

theorem current_eq_tickrun {s : State} (h : s.seq.cur = .tickrun) : s.current = .tickrun := by
  simp [State.current, h]

/-- TICKRUN's micro-step 10 is a computation, s7, or it is skipped because ARMED = 1 (42_tick.md rules R187, R188). -/
theorem armed_of_tickrun_ten {s : State} {op : MicroOp} (h : tableAt (earlierRows .tickrun s) 10 = some op)
    (hplain : op.isCompute = false) : s.tick.armed = true := by
  cases ha : s.tick.armed with
  | true => rfl
  | false =>
    have hten : tableAt (earlierRows .tickrun s) 10 = some (.compute s.setArmed) := by
      simp [earlierRows, ha, tickSetupSeq, timerS, pwriteS, tableAt]
    rw [h] at hten
    cases hten
    cases hplain

/-- STARTED is 1 after a last row only if it was before or the command is TICKRUN (42_tick.md rule R188, u3). -/
theorem started_of_finalState {i : Instr} {s : State} (h : (finalState i s).tick.started = true) :
    i = .tickrun ∨ s.tick.started = true := by
  by_cases hi : i = .tickrun
  · exact .inl hi
  · rw [finalState_tick i s hi] at h
    exact .inr h

theorem tickInv_keptBySequencer : KeptBySequencer TickInv where
  congr h hseq htick _ := by simpa only [TickInv, hseq, htick] using h
  seqTurn := by
    intro s t hb hturn ⟨hshift, htop, hstarted, hpast⟩
    cases hturn with
    | last hstep =>
      have harmed : (finalState s.current s).tick.started = true → s.tick.armed = true := by
        intro hst
        rcases started_of_finalState hst with hi | hst
        · rw [hi] at hstep
          exact hpast hb (cur_of_current hi) (by rw [hstep]; decide)
        · exact hstarted hst
      obtain ⟨_, _, _, _, _, _, hf⟩ := finalState_eq s.current s
      rw [hf] at harmed ⊢
      exact ⟨hshift, htop, harmed, fun hbusy => by cases hbusy⟩
    | arm _ _ _ => exact ⟨hshift, htop, fun _ => rfl, fun _ _ _ => rfl⟩
    | period hi hstep =>
      obtain ⟨hshift', htop'⟩ := computePeriod_ok Config.clkCyclesPerMs s.seq.lArg
      exact ⟨hshift', htop', hstarted, fun _ hc _ => hpast hb hc (by omega)⟩
    | plain _ hop hplain hrun =>
      have harmed (hc : s.seq.cur = .tickrun) (hge : 10 ≤ s.seq.step) : s.tick.armed = true := by
        rcases hge.eq_or_lt with hten | hgt
        · rw [current_eq_tickrun hc, ← hten] at hop
          exact armed_of_tickrun_ten hop hplain
        · exact hpast hb hc hgt
      obtain ⟨_, _, _, _, _, _, _, rfl⟩ := MicroOp.run_eq_of_plain hplain hrun
      exact ⟨hshift, htop, hstarted, fun _ hc hgt => harmed hc (Nat.le_of_lt_succ hgt)⟩
    | held => exact ⟨hshift, htop, hstarted, hpast⟩
  accept := by
    intro s i _ ⟨hshift, htop, hstarted, _⟩
    exact ⟨hshift, htop, hstarted, fun _ _ hgt => by simp at hgt⟩
  env e h := by simpa only [TickInv, State.envStep_seq, State.envStep_tick] using h
  reset s := ⟨Nat.zero_le _, fun _ => by simp [State.systemReset, State.reset], fun h => h, fun h => by cases h⟩

/-- Settles O51: row a2 computes the pair as R34 asks, u3 comes after s7, and no other turn writes TickTimerState. -/
theorem tickInvariantIsKept : Obligations.TickInvariantIsKept := fun _ _ => tickInv_keptBySequencer.step

/-! ### Turns other than a system reset -/

/-- A step that is no system reset takes a turn that is none, after the turn is used up; a block's turn is the block's
by the schedule. -/
theorem step_cases_of_no_reset {s t : State} (h : step s = .next t) (hreset : ∀ rest, s.world.sched ≠ .reset :: rest) :
    ∃ tn ts, tn ≠ .reset ∧ (s.setSched ts).takeTurn tn = .next t ∧ (tn = .block → blockIsNext s) := by
  obtain ⟨tn, ts, hturn, hs | ⟨hs, rfl⟩⟩ := step_cases h
  · exact ⟨tn, ts, fun he => hreset ts (he ▸ hs), hturn, fun he => .inr ⟨ts, he ▸ hs⟩⟩
  · exact ⟨.block, ts, by simp, hturn, fun _ => .inl hs⟩

/-- Outside the block's own turn and a reset, no turn changes TickTimerState, TICKPEND or CALERR, and none clears
CMDERR. -/
theorem takeTurn_outside_block {tn : Turn} {s t : State} (h : s.takeTurn tn = .next t) (hblock : tn ≠ .block)
    (hreset : tn ≠ .reset) :
    t.tick = s.tick ∧ t.tickPend = s.tickPend ∧ t.calErr = s.calErr ∧ (s.cmdErr = true → t.cmdErr = true) := by
  rcases takeTurn_cases h with ⟨htn, -⟩ | ⟨htn, -⟩ | ⟨a, -, -, -, hacc⟩ | ⟨-, rfl⟩ | ⟨-, -, rfl⟩ | ⟨e, -, rfl⟩
    | ⟨htn, -⟩ | rfl
  · exact absurd htn hblock
  · exact absurd htn hblock
  · rcases hostAccess_cases hacc with ⟨v, rfl⟩ | ⟨-, v, rfl⟩ | ⟨w, rfl⟩ | rfl | rfl
    · exact ⟨rfl, rfl, rfl, id⟩
    · exact ⟨rfl, rfl, rfl, id⟩
    · rcases offerCommand_cases w s with he | ⟨-, i, -, he⟩ <;> rw [he]
      · exact ⟨rfl, rfl, rfl, fun _ => rfl⟩
      · exact ⟨rfl, rfl, rfl, id⟩
    · exact ⟨rfl, rfl, rfl, id⟩
    · exact ⟨rfl, rfl, rfl, id⟩
  · exact ⟨rfl, rfl, rfl, id⟩
  · exact ⟨rfl, rfl, rfl, id⟩
  · obtain ⟨_, _, _, he⟩ := s.envStep_eq e
    rw [he]
    exact ⟨rfl, rfl, rfl, id⟩
  · exact absurd htn hreset
  · exact ⟨rfl, rfl, rfl, id⟩

/-- The block's turn: IRQH's while a handler run is active, else SEQ's while a command is in progress, else nothing. -/
theorem blockTurn_next_cases {s t : State} (h : s.takeTurn .block = .next t) :
    (s.irq.active = true ∧ t = s.handlerStep)
      ∨ (s.irq.active = false ∧ s.seq.busy = true ∧ SeqTurn s.current s t) ∨ t = s := by
  have h : s.blockTurn = .next t := h
  rcases blockTurn_cases s with ⟨ha, he⟩ | ⟨ha, hb, he⟩ | ⟨-, -, he⟩ <;> rw [he] at h
  · cases h
    exact .inl ⟨ha, rfl⟩
  · exact .inr (.inl ⟨ha, hb, seqTurn_of_exec h⟩)
  · cases h
    exact .inr (.inr rfl)

/-! ### The sticky bits, TICKPEND and TickTimerState -/

/-- CMDERR, CALERR, ARMED and STARTED that are 1 stay 1. -/
structure KeepsSticky (s t : State) : Prop where
  cmdErr : s.cmdErr = true → t.cmdErr = true
  calErr : s.calErr = true → t.calErr = true
  armed : s.tick.armed = true → t.tick.armed = true
  started : s.tick.started = true → t.tick.started = true

theorem SeqTurn.keepsSticky {i : Instr} {s t : State} (h : SeqTurn i s t) : KeepsSticky s t := by
  cases h with
  | last _ =>
    have hcal := finalState_calErr i s
    have hstarted := finalState_started i s
    obtain ⟨_, _, _, _, _, _, hf⟩ := finalState_eq i s
    rw [hf] at hcal hstarted ⊢
    exact ⟨id, hcal, id, hstarted⟩
  | arm _ _ _ => exact ⟨id, id, fun _ => rfl, id⟩
  | period _ _ => exact ⟨id, id, id, id⟩
  | plain _ _ hplain hrun =>
    obtain ⟨_, _, _, _, _, _, _, rfl⟩ := MicroOp.run_eq_of_plain hplain hrun
    exact ⟨id, id, id, id⟩
  | held => exact ⟨id, id, id, id⟩

theorem keepsSticky_of_blockTurn {s t : State} (h : s.takeTurn .block = .next t) : KeepsSticky s t := by
  rcases blockTurn_next_cases h with ⟨-, rfl⟩ | ⟨-, -, hturn⟩ | rfl
  · obtain ⟨_, _, _, _, _, he⟩ := s.handlerStep_eq
    rw [he]
    exact ⟨id, id, id, id⟩
  · exact hturn.keepsSticky
  · exact ⟨id, id, id, id⟩

/-- Settles O57, by the block's turn and the turns outside it. -/
theorem stickyBitsAreClearedByResetAlone : Obligations.StickyBitsAreClearedByResetAlone := by
  intro s t hstep hreset
  obtain ⟨tn, ts, htn, hturn, -⟩ := step_cases_of_no_reset hstep hreset
  by_cases hblock : tn = .block
  · subst hblock
    obtain ⟨hcmd, hcal, harmed, hstarted⟩ := keepsSticky_of_blockTurn hturn
    exact ⟨hcmd, hcal, harmed, hstarted⟩
  · obtain ⟨htick, -, hcal, hcmd⟩ := takeTurn_outside_block hturn hblock htn
    rw [htick, hcal]
    exact ⟨hcmd, id, id, id⟩

/-- A handler run writes TICKPEND at h3 alone, where it sets it (60_exceptions.md rule R226). -/
theorem handlerStep_tickPend (s : State) :
    s.handlerStep.tickPend = s.tickPend ∨ (s.irq.istep = .setTick ∧ s.handlerStep.tickPend = true) := by
  unfold State.handlerStep
  cases s.irq.istep with
  | clearPending => exact .inl (by simp)
  | clearMatch => exact .inl (by simp)
  | syncMatch => exact .inl (by cases s.timer.syncBusy <;> rfl)
  | setTick => exact .inr ⟨rfl, rfl⟩

/-- SEQ writes TICKPEND at TICKTAKE's micro-step alone, where it clears it (42_tick.md rule R195). -/
theorem SeqTurn.tickPend {i : Instr} {s t : State} (h : SeqTurn i s t) :
    t.tickPend = s.tickPend ∨ (i = .ticktake ∧ s.seq.step = 1 ∧ t.tickPend = false) := by
  cases h with
  | last hstep =>
    by_cases hi : i = .ticktake
    · subst hi
      exact .inr ⟨rfl, hstep, rfl⟩
    · exact .inl (finalState_tickPend i s hi)
  | arm _ _ _ => exact .inl rfl
  | period _ _ => exact .inl rfl
  | plain _ _ hplain hrun =>
    obtain ⟨_, _, _, _, _, _, _, rfl⟩ := MicroOp.run_eq_of_plain hplain hrun
    exact .inl rfl
  | held => exact .inl rfl

/-- A step outside a reset that changes TICKPEND is the block's turn: IRQH at h3, which sets it, or SEQ at TICKTAKE,
which clears it. -/
theorem step_tickPend {s t : State} (hstep : step s = .next t) (hreset : ∀ rest, s.world.sched ≠ .reset :: rest) :
    t.tickPend = s.tickPend
      ∨ (blockIsNext s ∧ s.irq.active = true ∧ s.irq.istep = .setTick ∧ t.tickPend = true)
      ∨ (blockIsNext s ∧ s.irq.active = false ∧ s.seq.busy = true ∧ s.seq.cur = .ticktake ∧ s.seq.step = 1
          ∧ t.tickPend = false) := by
  obtain ⟨tn, ts, htn, hturn, hblockNext⟩ := step_cases_of_no_reset hstep hreset
  by_cases hblock : tn = .block
  · have hnext := hblockNext hblock
    subst hblock
    rcases blockTurn_next_cases hturn with ⟨ha, rfl⟩ | ⟨ha, hb, hseq⟩ | rfl
    · rcases handlerStep_tickPend (s.setSched ts) with hsame | ⟨hset, htrue⟩
      · exact .inl hsame
      · exact .inr (.inl ⟨hnext, ha, hset, htrue⟩)
    · rcases hseq.tickPend with hsame | ⟨hi, hone, hfalse⟩
      · exact .inl hsame
      · exact .inr (.inr ⟨hnext, ha, hb, cur_of_current hi, hone, hfalse⟩)
    · exact .inl rfl
  · obtain ⟨-, hpend, -⟩ := takeTurn_outside_block hturn hblock htn
    exact .inl hpend

/-- Settles O58, from the three things a step can do to TICKPEND. -/
theorem tickpendHasOneProducerAndOneConsumer : Obligations.TickpendHasOneProducerAndOneConsumer := by
  intro s t hstep hreset
  rcases step_tickPend hstep hreset with hsame | ⟨hnext, ha, hset, htrue⟩ | ⟨hnext, ha, hb, hcur, hone, hfalse⟩
  · constructor <;> intro hs ht <;> rw [hsame, hs] at ht <;> cases ht
  · exact ⟨fun _ _ => ⟨hnext, ha, hset⟩, fun _ ht => by rw [htrue] at ht; cases ht⟩
  · exact ⟨fun _ ht => (by rw [hfalse] at ht; cases ht), fun _ _ => ⟨hnext, ha, hb, hcur, hone⟩⟩

/-- SEQ writes TickTimerState at TICKRUN's rows s7, a2 and u3 alone (10_state.md rules R24 to R27). -/
theorem SeqTurn.tick {i : Instr} {s t : State} (h : SeqTurn i s t) :
    t.tick = s.tick ∨ (i = .tickrun ∧ (s.seq.step = 10 ∨ s.seq.step = 13 ∨ s.seq.step = 22)) := by
  cases h with
  | last hstep =>
    by_cases hi : i = .tickrun
    · subst hi
      exact .inr ⟨rfl, .inr (.inr hstep)⟩
    · exact .inl (finalState_tick i s hi)
  | arm hi hstep _ => exact .inr ⟨hi, .inl hstep⟩
  | period hi hstep => exact .inr ⟨hi, .inr (.inl hstep)⟩
  | plain _ _ hplain hrun =>
    obtain ⟨_, _, _, _, _, _, _, rfl⟩ := MicroOp.run_eq_of_plain hplain hrun
    exact .inl rfl
  | held => exact .inl rfl

/-- Settles O59: of the block's turns SEQ's alone writes TickTimerState, at the three rows of TICKRUN. -/
theorem tickTimerStateIsTickrunsAlone : Obligations.TickTimerStateIsTickrunsAlone := by
  intro s t hstep hreset hne
  obtain ⟨tn, ts, htn, hturn, hblockNext⟩ := step_cases_of_no_reset hstep hreset
  by_cases hblock : tn = .block
  · have hnext := hblockNext hblock
    subst hblock
    rcases blockTurn_next_cases hturn with ⟨ha, rfl⟩ | ⟨ha, hb, hseq⟩ | rfl
    · exact absurd (State.handlerStep_tick _) hne
    · rcases hseq.tick with hsame | ⟨hi, hrow⟩
      · exact absurd hsame hne
      · exact ⟨hnext, ha, hb, cur_of_current hi, hrow⟩
    · exact absurd rfl hne
  · obtain ⟨htick, -⟩ := takeTurn_outside_block hturn hblock htn
    exact absurd htick hne

end Sys2Proof.Machine


/-! The ADC along a conversion and outside it: the invariant of 10_state.md rule R34 (v), (vi) is kept by every step. -/

namespace Sys2Proof.Machine

open Sys2Proof.Safety

/-! ### The ADC along `ADC_CONV_SEQ` -/

/-- What the ADC and T0 hold at position `p` of a conversion of `ch` with `ref` (`convPos`; 0 outside one): the clauses
of `AdcInv` but that on SWRST. -/
structure AdcAt (p : Nat) (ch : BitVec 5) (ref : Bool) (t0 : Word) (a : Adc) : Prop where
  enable : a.enable = true ↔ 12 ≤ p ∧ p ≤ 19
  converting : a.converting = true → 14 ≤ p ∧ p ≤ 15
  ready : a.ready = true → 14 ≤ p ∧ p ≤ 17
  polling : 14 ≤ p → p ≤ 15 → a.ready = !a.converting
  sampled : 16 ≤ p → p ≤ 17 → a.ready = true
  gain : 2 ≤ p → a.gain = gainOf ref
  refsel : 4 ≤ p → a.refsel = refselOf ref
  posin : 6 ≤ p → a.posin = ch
  negin : 8 ≤ p → a.negin = neginOf ref
  samptime : 10 ≤ p → a.samptime = Config.samptimeMax
  sample : 17 ≤ p → t0 = a.result.setWidth 32

/-- The ADC is disabled, neither converts nor holds a sample to take. -/
structure AdcOff (a : Adc) : Prop where
  enable : a.enable = false
  converting : a.converting = false
  ready : a.ready = false

theorem adcInv_iff (s : State) : AdcInv s ↔
    AdcAt (convPos s) (convCh s) (convRef s) s.seq.t0 s.adc ∧ (s.adc.swrst = true → atResetPoll s) := by
  constructor
  · rintro ⟨h1, h2, h3, h4, h5, h6, h7, h8, h9, h10, h11, h12⟩
    exact ⟨⟨h1, h3, h4, h5, h6, h7, h8, h9, h10, h11, h12⟩, h2⟩
  · rintro ⟨⟨h1, h3, h4, h5, h6, h7, h8, h9, h10, h11, h12⟩, h2⟩
    exact ⟨h1, h2, h3, h4, h5, h6, h7, h8, h9, h10, h11, h12⟩

/-! ### The writes of the ADC's rows, one equation per field -/

@[simp] theorem Adc.store_enable (a : Adc) (on : Bool) :
    a.store (.adcEnable on) = { a with enable := on, converting := a.converting && on } := rfl
@[simp] theorem Adc.store_gain (a : Adc) (g : Gain) : a.store (.adcGain g) = { a with gain := g } := rfl
@[simp] theorem Adc.store_refsel (a : Adc) (r : RefSel) : a.store (.adcRefsel r) = { a with refsel := r } := rfl
@[simp] theorem Adc.store_posin (a : Adc) (ch : BitVec 5) : a.store (.adcPosin ch) = { a with posin := ch } := rfl
@[simp] theorem Adc.store_negin (a : Adc) (n : NegIn) : a.store (.adcNegin n) = { a with negin := n } := rfl
@[simp] theorem Adc.store_samptime (a : Adc) (t : BitVec 6) : a.store (.adcSamptime t) = { a with samptime := t } := rfl
@[simp] theorem Adc.store_readyClear (a : Adc) : a.store .adcReadyClear = { a with ready := false } := rfl

@[simp] theorem Adc.store_start (a : Adc) : a.store .adcStart = { a with converting := a.converting || a.enable } := rfl

/-- Up to the first row of a conversion nothing is asked but that the ADC is off. -/
theorem AdcOff.adcAt {a : Adc} (h : AdcOff a) {p : Nat} (hp : p ≤ 1) (ch : BitVec 5) (ref : Bool) (t0 : Word) :
    AdcAt p ch ref t0 a where
  enable := by simp only [h.enable, Bool.false_eq_true, false_iff]; omega
  converting hc := by simp [h.converting] at hc
  ready hr := by simp [h.ready] at hr
  polling _ _ := by omega
  sampled _ _ := by omega
  gain _ := by omega
  refsel _ := by omega
  posin _ := by omega
  negin _ := by omega
  samptime _ := by omega
  sample _ := by omega

/-- Outside a conversion's rows c5 to c11 the ADC is off. -/
theorem AdcAt.adcOff {p : Nat} {ch : BitVec 5} {ref : Bool} {t0 : Word} {a : Adc} (h : AdcAt p ch ref t0 a)
    (hp : p < 12 ∨ 19 < p) : AdcOff a := by
  constructor <;> rw [Bool.eq_false_iff] <;> intro ht
  · have := h.enable.1 ht; omega
  · have := h.converting ht; omega
  · have := h.ready ht; omega

/-- A wait on SYNCBUSY stands at an even position and changes nothing the next one asks for. -/
theorem AdcAt.next_of_wait {p : Nat} {ch : BitVec 5} {ref : Bool} {t0 : Word} {a : Adc} (h : AdcAt p ch ref t0 a)
    (heven : p % 2 = 0) (hp : p ≠ 16) : AdcAt (p + 1) ch ref t0 a where
  enable := h.enable.trans (by omega)
  converting hc := by have := h.converting hc; omega
  ready hr := by have := h.ready hr; omega
  polling h1 h2 := h.polling (by omega) (by omega)
  sampled h1 h2 := h.sampled (by omega) (by omega)
  gain _ := h.gain (by omega)
  refsel _ := h.refsel (by omega)
  posin _ := h.posin (by omega)
  negin _ := h.negin (by omega)
  samptime _ := h.samptime (by omega)
  sample _ := h.sample (by omega)

/-- The ready poll is left with READY = 1, and so with no conversion in progress. -/
theorem AdcAt.next_of_ready {ch : BitVec 5} {ref : Bool} {t0 : Word} {a : Adc} (h : AdcAt 15 ch ref t0 a)
    (hr : a.ready = true) : AdcAt 16 ch ref t0 a where
  enable := h.enable.trans (by omega)
  converting hc := by
    have hpoll := h.polling (by omega) (by omega)
    simp [hr, hc] at hpoll
  ready _ := by omega
  polling _ _ := by omega
  sampled _ _ := hr
  gain _ := h.gain (by omega)
  refsel _ := h.refsel (by omega)
  posin _ := h.posin (by omega)
  negin _ := h.negin (by omega)
  samptime _ := h.samptime (by omega)
  sample _ := by omega

/-- Reading RESULT puts the sample of this conversion in T0. -/
theorem AdcAt.next_of_read {ch : BitVec 5} {ref : Bool} {t0 : Word} {a : Adc} (h : AdcAt 16 ch ref t0 a) :
    AdcAt 17 ch ref (a.result.setWidth 32) a where
  enable := h.enable.trans (by omega)
  converting hc := by have := h.converting hc; omega
  ready _ := by omega
  polling _ _ := by omega
  sampled _ _ := h.sampled (by omega) (by omega)
  gain _ := h.gain (by omega)
  refsel _ := h.refsel (by omega)
  posin _ := h.posin (by omega)
  negin _ := h.negin (by omega)
  samptime _ := h.samptime (by omega)
  sample _ := rfl

/-- The rows of `ADC_CONV_SEQ` by kind: a write to an ADC field, none of which arms a reset; a wait on SYNCBUSY, at an
even position; the ready poll; the read of RESULT. -/
inductive ConvRow (p : Nat) : MicroOp → Prop
  | write (w : FieldWrite) (hadc : w.periph = some .adc) (hswrst : ∀ a : Adc, (a.store w).swrst = a.swrst) :
      ConvRow p (.pwrite w)
  | wait (heven : p % 2 = 0) (hp : p ≠ 16) : ConvRow p (.syncWait .adc)
  | poll (hp : p = 15) : ConvRow p .pollReady
  | read (hp : p = 16) : ConvRow p .readResult

theorem convSeq_row {p : Nat} {ch : BitVec 5} {ref : Bool} {op : MicroOp}
    (hop : tableAt (adcConvSeq ch ref) p = some op) : ConvRow p op := by
  obtain ⟨h1, h2⟩ := index_of_tableAt hop
  rw [adcConvSeq_length] at h2
  rw [adcConvSeq_eq] at hop
  interval_cases p <;> cases hop <;> constructor <;> simp [FieldWrite.periph]

/-- The write of a row of `ADC_CONV_SEQ` leaves the ADC as the next position asks. Row by row: with the position a numeral
a clause asks for something or for nothing, and what it asks for stands from the position before or is the field just
written. -/
theorem AdcAt.next_of_write {p : Nat} {ch : BitVec 5} {ref : Bool} {t0 : Word} {a : Adc} {w : FieldWrite} {b : Bool}
    (h : AdcAt p ch ref t0 a) (hop : tableAt (adcConvSeq ch ref) p = some (.pwrite w)) :
    AdcAt (p + 1) ch ref t0 { a.store w with syncBusy := b } := by
  obtain ⟨h1, h2⟩ := index_of_tableAt hop
  rw [adcConvSeq_length] at h2
  obtain ⟨henable, hconv, hready, hpoll, hsampled, hgain, hrefsel, hposin, hnegin, hsamptime, hsample⟩ := h
  rw [adcConvSeq_eq] at hop
  interval_cases p <;> cases hop <;>
    norm_num at henable hconv hready hpoll hsampled hgain hrefsel hposin hnegin hsamptime hsample <;>
    constructor <;> simp [*]

/-- A completed row of `ADC_CONV_SEQ` leaves the ADC as the next position asks and arms no reset (40_adc.md rule
R123). -/
theorem AdcAt.next {p : Nat} {ch : BitVec 5} {ref : Bool} {s u : State} {op : MicroOp}
    (h : AdcAt p ch ref s.seq.t0 s.adc) (hop : tableAt (adcConvSeq ch ref) p = some op)
    (hrun : op.run s = .completes u) :
    AdcAt (p + 1) ch ref u.seq.t0 u.adc ∧ u.adc.swrst = s.adc.swrst := by
  cases convSeq_row hop with
  | write w hadc hswrst =>
    cases hrun
    rw [State.pwrite_adc_of_adc _ _ hadc, State.pwrite_seq]
    exact ⟨h.next_of_write hop, hswrst s.adc⟩
  | wait heven hp =>
    rw [eq_of_waitFor_completes hrun]
    exact ⟨h.next_of_wait heven hp, rfl⟩
  | poll hp =>
    subst hp
    cases hr : s.adc.ready with
    | true =>
      rw [eq_of_waitFor_completes hrun]
      exact ⟨h.next_of_ready hr, rfl⟩
    | false => simp [MicroOp.run, hr] at hrun
  | read hp =>
    subst hp
    cases hrun
    exact ⟨h.next_of_read, rfl⟩

/-! ### The rows outside `ADC_CONV_SEQ` -/

/-- The index of r4, the poll that ends `ADC_RESET_SEQ`, in the table of a command that contains it (40_adc.md rule
R122). -/
def resetPollStep : Opcode → Option Nat
  | .adcreset => some 5
  | .adcinit => some 7
  | .tempinit => some 8
  | _ => none

theorem atResetPoll_iff (s : State) :
    atResetPoll s ↔ s.seq.busy = true ∧ some s.seq.step = resetPollStep s.seq.cur := by
  unfold atResetPoll
  cases s.seq.cur <;> simp [resetPollStep]

/-- A write that neither enables the ADC nor triggers anything in it. -/
def FieldWrite.leavesAdcOff : FieldWrite → Bool
  | .adcEnable on => !on
  | .adcStart => false
  | .adcSwrst => false
  | _ => true

/-- A micro-operation that neither enables the ADC nor triggers anything in it. -/
def MicroOp.leavesAdcOff : MicroOp → Bool
  | .pwrite w => w.leavesAdcOff
  | .compute _ => false
  | _ => true

theorem pwrite_leavesAdcOff {w : FieldWrite} {s : State} (hw : w.leavesAdcOff = true) (h : AdcOff s.adc) :
    AdcOff (s.pwrite w).adc ∧ (s.pwrite w).adc.swrst = s.adc.swrst := by
  obtain ⟨henable, hconv, hready⟩ := h
  cases w with
  | adcEnable on =>
    obtain rfl : on = false := by simpa [FieldWrite.leavesAdcOff] using hw
    rw [pwrite_adc _ _ rfl]
    exact ⟨⟨rfl, Bool.and_false _, hready⟩, rfl⟩
  | adcStart => cases hw
  | adcSwrst => cases hw
  | adcReadyClear => exact ⟨⟨henable, hconv, rfl⟩, rfl⟩
  | _ => exact ⟨⟨henable, hconv, hready⟩, rfl⟩

theorem run_leavesAdcOff {op : MicroOp} {s u : State} (hop : op.leavesAdcOff = true) (h : AdcOff s.adc)
    (hrun : op.run s = .completes u) : AdcOff u.adc ∧ u.adc.swrst = s.adc.swrst := by
  cases op with
  | pwrite w => cases hrun; exact pwrite_leavesAdcOff hop h
  | syncWait p => rw [eq_of_waitFor_completes hrun]; exact ⟨h, rfl⟩
  | pollReset => rw [eq_of_waitFor_completes hrun]; exact ⟨h, rfl⟩
  | pollReady => rw [eq_of_waitFor_completes hrun]; exact ⟨h, rfl⟩
  | compute t => cases hop
  | _ => cases hrun; exact ⟨h, rfl⟩

/-- The rows outside `ADC_CONV_SEQ` by what they do to the ADC, `poll` the index of r4: r3, which arms the reset just
before the poll; the poll; and the rows that trigger nothing in the ADC. -/
inductive SetupRow (poll : Option Nat) (k : Nat) : MicroOp → Prop
  | arm (hnext : some (k + 1) = poll) : SetupRow poll k (.pwrite .adcSwrst)
  | poll : SetupRow poll k .pollReset
  | off {op : MicroOp} (hoff : op.leavesAdcOff = true) (hne : some k ≠ poll) : SetupRow poll k op

theorem adcResetSeq_row {s : State} {k : Nat} {op : MicroOp} (hop : tableAt (adcResetSeq s) k = some op) :
    SetupRow (some 5) k op := by
  obtain ⟨h1, h2⟩ := index_of_tableAt hop
  rw [adcResetSeq_length] at h2
  unfold adcResetSeq at hop
  cases hg : s.seq.t0 == 1 <;> rw [hg] at hop <;> interval_cases k <;> cases hop <;> constructor <;> decide

/-- Up to the conversion ADCINIT's rows are the two clocks, `ADC_RESET_SEQ` and the configuration (40_adc.md rule
R128). -/
theorem adcInitSeq_row {s : State} {k : Nat} {op : MicroOp} (hop : tableAt (adcInitSeq s) k = some op)
    (hk : k ≤ 13) : SetupRow (some 7) k op := by
  obtain ⟨h1, -⟩ := index_of_tableAt hop
  unfold adcInitSeq adcResetSeq at hop
  cases hg : s.seq.t0 == 1 <;> rw [hg] at hop <;> interval_cases k <;> cases hop <;> constructor <;> decide

/-- A row that comes one later in a table whose poll comes one later. -/
theorem SetupRow.succ {poll k : Nat} {op : MicroOp} (h : SetupRow (some poll) k op) :
    SetupRow (some (poll + 1)) (k + 1) op := by
  cases h with
  | arm hnext => exact .arm (congrArg (Option.map Nat.succ) hnext)
  | poll => exact .poll
  | off hoff hne => exact .off hoff fun h => hne (congrArg (Option.map Nat.pred) h)

/-- TICKRUN's rows trigger nothing in the ADC. -/
theorem tickrun_leavesAdcOff (s : State) :
    (earlierRows .tickrun s).all (fun op => op.leavesAdcOff || op.isCompute) = true := by
  unfold earlierRows
  cases s.tick.armed <;> rfl

/-- A row before the conversion, or of a command without one, reaches the ADC as `SetupRow` says. -/
theorem setupRow_of_earlierRows {i : Instr} {s : State} {k : Nat} {op : MicroOp}
    (hop : tableAt (earlierRows i s) k = some op) (hplain : op.isCompute = false)
    (hk : ∀ o, convOffset (opcodeOf i) = some o → k ≤ o) : SetupRow (resetPollStep (opcodeOf i)) k op := by
  obtain ⟨h1, -⟩ := index_of_tableAt hop
  cases i with
  | adcreset => exact adcResetSeq_row hop
  | adcinit => exact adcInitSeq_row hop (hk 13 rfl)
  | tempinit =>
    have h14 : k ≤ 14 := hk 14 rfl
    match k, h1 with
    | 1, _ => cases hop; exact .off rfl (by decide)
    | j + 2, _ =>
      rw [earlierRows, tableAt_cons_succ] at hop
      exact (adcInitSeq_row hop (by omega)).succ
  | adcread c r => exact absurd (hk 0 rfl) (by omega)
  | tempraw => exact absurd (hk 0 rfl) (by omega)
  | tempconv =>
    have hmem := mem_of_tableAt hop
    simp only [earlierRows, List.mem_cons, List.not_mem_nil, or_false] at hmem
    rcases hmem with rfl | rfl <;> exact .off rfl (by simp [resetPollStep, opcodeOf])
  | tickcomp => simp [earlierRows] at hop
  | ticktake => simp [earlierRows] at hop
  | tickrun =>
    have hoff := List.all_eq_true.1 (tickrun_leavesAdcOff s) op (mem_of_tableAt hop)
    rw [hplain, Bool.or_false] at hoff
    exact .off hoff (by simp [resetPollStep, opcodeOf])

/-! ### The position in `ADC_CONV_SEQ` -/

theorem convPos_of_idle {s : State} (h : s.seq.busy = false) : convPos s = 0 := by
  simp [convPos, h]

theorem convPos_of_offset {s : State} (hb : s.seq.busy = true) {o : Nat} (ho : convOffset s.seq.cur = some o) :
    convPos s = s.seq.step - o := by
  simp [convPos, hb, ho]

theorem convPos_of_no_offset {s : State} (ho : convOffset s.seq.cur = none) : convPos s = 0 := by
  simp [convPos, ho]

/-- Where STEP goes to the next row the position goes to the next, or the conversion is reached. -/
theorem convPos_of_next {s t : State} (hb : s.seq.busy = true) {t0 t1 : Word}
    (h : t.seq = { s.seq with step := s.seq.step + 1, t0 := t0, t1 := t1 }) :
    convPos t = convPos s + 1 ∨ (convPos s = 0 ∧ convPos t ≤ 1) := by
  cases ho : convOffset s.seq.cur with
  | none => exact .inr ⟨convPos_of_no_offset ho, by rw [convPos_of_no_offset (by rw [h]; exact ho)]; omega⟩
  | some o =>
    rw [convPos_of_offset hb ho, convPos_of_offset (s := t) (by rw [h]; exact hb) (by rw [h]; exact ho), h]
    dsimp only
    omega

/-- The first row of a command is no later than the first of its conversion. -/
theorem convPos_accept_le (i : Instr) (s : State) : convPos (s.accept i) ≤ 1 := by
  cases i <;> simp [convPos, opcodeOf, convOffset]

/-- The poll r4 is outside `ADC_CONV_SEQ`. -/
theorem convPos_of_atResetPoll {s : State} (h : atResetPoll s) : convPos s = 0 := by
  obtain ⟨-, ⟨hc, hstep⟩ | ⟨hc, hstep⟩ | ⟨hc, hstep⟩⟩ := h <;> simp [convPos, hc, hstep, convOffset]

/-- In the conversion the row at STEP is that of `ADC_CONV_SEQ` at the position. -/
theorem tableAt_of_convPos {s : State} (h1 : 1 ≤ convPos s) (hlt : s.seq.step < tableLength s.seq.cur) :
    tableAt (earlierRows s.current s) s.seq.step = tableAt (adcConvSeq (convCh s) (convRef s)) (convPos s) := by
  have hb : s.seq.busy = true := by
    by_contra hb
    rw [convPos_of_idle (by simpa using hb)] at h1
    omega
  cases ho : convOffset s.seq.cur with
  | none => rw [convPos_of_no_offset ho] at h1; omega
  | some o =>
    rw [convPos_of_offset hb ho] at h1 ⊢
    have hstep : s.seq.step = o + (s.seq.step - o) := by omega
    have ho' : convOffset (opcodeOf s.current) = some o := by rw [opcodeOf_current, ho]
    rw [← tableAt_earlier s.current s s.seq.step (by omega) (by rwa [opcodeOf_current])]
    have h20 : s.seq.step - o ≤ 20 := by
      cases hc : s.seq.cur <;> rw [hc] at ho hlt <;> simp [convOffset] at ho <;> simp [tableLength] at hlt <;> omega
    rw [hstep, stepTable_conv s.current s o _ ho' h1 h20, ← hstep]
    congr 2
    · clear hstep h20
      revert ho'
      unfold State.current convCh
      cases s.seq.cur <;> intro _ <;> simp
    · revert ho'
      unfold State.current convRef
      cases s.seq.cur <;> intro _ <;> simp

/-! ### The invariant -/

/-- What a row outside `ADC_CONV_SEQ` leaves: the ADC off, and a reset armed only where the poll is next. -/
theorem SetupRow.run {poll : Option Nat} {k : Nat} {op : MicroOp} {s u : State} (h : SetupRow poll k op)
    (hrun : op.run s = .completes u) (hoff : AdcOff s.adc) (hswrst : s.adc.swrst = true → some k = poll) :
    AdcOff u.adc ∧ (u.adc.swrst = true → some (k + 1) = poll) := by
  cases h with
  | arm hnext =>
    cases hrun
    rw [pwrite_adc _ _ rfl]
    exact ⟨⟨hoff.enable, hoff.converting, hoff.ready⟩, fun _ => hnext⟩
  | poll =>
    cases hr : s.adc.swrst with
    | true => simp [MicroOp.run, hr] at hrun
    | false =>
      rw [eq_of_waitFor_completes hrun]
      exact ⟨hoff, fun h => by rw [hr] at h; cases h⟩
  | off hkeep hne =>
    obtain ⟨hoff', heq⟩ := run_leavesAdcOff hkeep hoff hrun
    exact ⟨hoff', fun h => absurd (hswrst (heq ▸ h)) hne⟩

/-- Where the ADC is off and the conversion not past its first row, the invariant asks only for SWRST. -/
theorem adcInv_of_off {s : State} (hoff : AdcOff s.adc) (hp : convPos s ≤ 1)
    (hswrst : s.adc.swrst = true → atResetPoll s) : AdcInv s :=
  (adcInv_iff s).2 ⟨hoff.adcAt hp _ _ _, hswrst⟩

/-- The invariant is one of SEQ and the ADC. -/
theorem adcInv_congr {s t : State} (h : AdcInv s) (hseq : t.seq = s.seq) (hadc : t.adc = s.adc) : AdcInv t := by
  simpa only [AdcInv, atResetPoll, convPos, convCh, convRef, hseq, hadc] using h

/-- A command that ends leaves the ADC off: at its last row the conversion is over or there was none. -/
theorem adcOff_at_last {s : State} (h : AdcInv s) (hlast : s.seq.step = tableLength s.seq.cur) :
    AdcOff s.adc ∧ s.adc.swrst = false := by
  obtain ⟨hat, hswrst⟩ := (adcInv_iff s).1 h
  constructor
  · refine hat.adcOff ?_
    unfold convPos
    rw [hlast]
    cases s.seq.busy <;> cases s.seq.cur <;> simp [convOffset, tableLength]
  · rw [Bool.eq_false_iff]
    intro ht
    obtain ⟨-, hpoll⟩ := (atResetPoll_iff s).1 (hswrst ht)
    rw [hlast] at hpoll
    revert hpoll
    cases s.seq.cur <;> decide

/-- TICKRUN has no conversion and no reset poll, so the invariant keeps while it leaves the ADC alone. -/
theorem adcInv_of_tickrun {s t : State} (h : AdcInv s) (hcur : s.seq.cur = .tickrun) (hcur' : t.seq.cur = .tickrun)
    (hadc : t.adc = s.adc) : AdcInv t := by
  obtain ⟨hat, hswrst⟩ := (adcInv_iff s).1 h
  have hpos : convPos s = 0 := convPos_of_no_offset (by rw [hcur]; rfl)
  have hpos' : convPos t = 0 := convPos_of_no_offset (by rw [hcur']; rfl)
  refine adcInv_of_off (hadc ▸ hat.adcOff (by omega)) (by omega) fun ht => ?_
  obtain ⟨-, hpoll⟩ := (atResetPoll_iff s).1 (hswrst (hadc ▸ ht))
  rw [hcur] at hpoll
  cases hpoll

/-- A row that completes keeps the invariant, in the conversion and outside it. -/
theorem adcInv_plain {s u : State} {op : MicroOp} (h : AdcInv s) (hb : s.seq.busy = true)
    (hlt : s.seq.step < tableLength s.seq.cur) (hop : tableAt (earlierRows s.current s) s.seq.step = some op)
    (hplain : op.isCompute = false) (hrun : op.run s = .completes u) : AdcInv u.advance := by
  obtain ⟨hat, hswrst⟩ := (adcInv_iff s).1 h
  obtain ⟨t0, t1, hseq⟩ : ∃ t0 t1, u.advance.seq = { s.seq with step := s.seq.step + 1, t0 := t0, t1 := t1 } := by
    obtain ⟨_, _, _, _, _, _, _, rfl⟩ := MicroOp.run_eq_of_plain hplain hrun
    exact ⟨_, _, rfl⟩
  have hnext := convPos_of_next hb hseq
  rcases Nat.eq_zero_or_pos (convPos s) with hzero | hpos
  · have hbefore (o : Nat) (ho : convOffset (opcodeOf s.current) = some o) : s.seq.step ≤ o := by
      rw [opcodeOf_current] at ho
      rw [convPos_of_offset hb ho] at hzero
      omega
    have hrow := setupRow_of_earlierRows hop hplain hbefore
    rw [opcodeOf_current] at hrow
    obtain ⟨hoff, hpoll⟩ := hrow.run hrun (hat.adcOff (by omega)) fun ht => ((atResetPoll_iff s).1 (hswrst ht)).2
    refine adcInv_of_off hoff (by omega) fun ht => (atResetPoll_iff _).2 ?_
    rw [hseq]
    exact ⟨hb, hpoll ht⟩
  · rw [tableAt_of_convPos hpos hlt] at hop
    obtain ⟨hat', heq⟩ := hat.next hop hrun
    have hch : convCh u.advance = convCh s := by simp only [convCh, hseq]
    have href : convRef u.advance = convRef s := by simp only [convRef, hseq]
    have hpos' : convPos u.advance = convPos s + 1 := by omega
    refine (adcInv_iff _).2 ⟨?_, fun ht => ?_⟩
    · rw [hpos', hch, href]
      exact hat'
    · have := convPos_of_atResetPoll (hswrst (heq ▸ ht))
      omega

/-- A conversion completes at c7's wait or at the ready poll, with READY = 1. -/
theorem AdcAt.convert {p : Nat} {ch : BitVec 5} {ref : Bool} {t0 : Word} {a : Adc} (h : AdcAt p ch ref t0 a)
    (hc : a.converting = true) (v : BitVec 16) : AdcAt p ch ref t0 (a.convert v) := by
  obtain ⟨h14, h15⟩ := h.converting hc
  exact { h with
    converting := fun h => by cases h
    ready := fun _ => by omega
    polling := fun _ _ => rfl
    sampled := fun _ _ => rfl
    sample := fun _ => by omega }

/-- The environment keeps the invariant: it completes an armed reset only at r4, a conversion only in progress. -/
theorem adcInv_env {s : State} (h : AdcInv s) (e : EnvStep) : AdcInv (s.envStep e) := by
  cases e with
  | syncClear p => cases p <;> exact h
  | adcReset d =>
    simp only [State.envStep]
    split
    · rename_i harmed
      obtain ⟨-, hswrst⟩ := (adcInv_iff s).1 h
      have hpos : convPos s = 0 := convPos_of_atResetPoll (hswrst harmed)
      exact adcInv_of_off ⟨rfl, rfl, rfl⟩ (hpos.trans_le (by decide)) fun ht => by cases ht
    · exact h
  | adcConv v =>
    simp only [State.envStep]
    split
    · rename_i hconv
      obtain ⟨hc, -⟩ := Bool.and_eq_true_iff.1 hconv
      obtain ⟨hat, hswrst⟩ := (adcInv_iff s).1 h
      exact (adcInv_iff _).2 ⟨hat.convert hc v, hswrst⟩
    · exact h
  | timerTick =>
    simp only [State.envStep]
    split
    · obtain ⟨_, _, hd⟩ := s.divTick_eq
      rw [hd]
      exact h
    · exact h

theorem adcInv_keptBySequencer : KeptBySequencer AdcInv where
  congr h hseq _ hadc := adcInv_congr h hseq hadc
  seqTurn := by
    intro s t hb hturn h
    cases hturn with
    | last hlast =>
      rw [opcodeOf_current] at hlast
      obtain ⟨hoff, hswrst⟩ := adcOff_at_last h hlast
      obtain ⟨_, _, _, _, _, _, hf⟩ := finalState_eq s.current s
      rw [hf]
      exact adcInv_of_off hoff ((convPos_of_idle rfl).trans_le (by decide)) fun ht => absurd ht (by simp [hswrst])
    | arm hi _ _ => exact adcInv_of_tickrun h (cur_of_current hi) (cur_of_current hi) rfl
    | period hi _ => exact adcInv_of_tickrun h (cur_of_current hi) (cur_of_current hi) rfl
    | plain hlt hop hplain hrun => exact adcInv_plain h hb (by rwa [opcodeOf_current] at hlt) hop hplain hrun
    | held => exact h
  accept := by
    intro s i hb h
    obtain ⟨hat, hswrst⟩ := (adcInv_iff s).1 h
    rw [convPos_of_idle hb] at hat
    refine adcInv_of_off (hat.adcOff (by decide)) (convPos_accept_le i s) fun ht => ?_
    obtain ⟨hb', -⟩ := hswrst ht
    rw [hb] at hb'
    cases hb'
  env e h := adcInv_env h e
  reset s := adcInv_of_off ⟨rfl, rfl, rfl⟩ ((convPos_of_idle rfl).trans_le (by decide)) fun h => by cases h

/-- Settles O52: SEQ's rows keep the ADC in step with the position, and of the other agents the environment alone
reaches it. -/
theorem adcInvariantIsKept : Obligations.AdcInvariantIsKept := fun _ _ => adcInv_keptBySequencer.step

/-- Settles O53, each clause read from one of the two invariants. -/
theorem ruleThirtyFourFollows : Obligations.RuleThirtyFourFollows := by
  rintro s ⟨hshift, htop, hstarted, -⟩ hadc
  obtain ⟨hat, -⟩ := (adcInv_iff s).1 hadc
  refine ⟨hshift, by have := s.tick.top.isLt; omega, htop, hstarted, fun hidle => ?_, fun hconv => ?_⟩
  · rw [convPos_of_idle hidle] at hat
    exact (hat.adcOff (by decide)).enable
  · obtain ⟨h14, -⟩ := hat.converting hconv
    have hgain := hat.gain (by omega)
    have hrefsel := hat.refsel (by omega)
    cases href : convRef s <;> rw [href] at hgain hrefsel
    · exact .inr ⟨hgain, hrefsel⟩
    · exact .inl ⟨hgain, hrefsel⟩

end Sys2Proof.Machine


/-! The handler run, the system reset, the register window and the peripheral port, one turn or one operation at a
time. -/

namespace Sys2Proof.Machine

open Sys2Proof.Safety Sys2Proof.Statements

/-! ### While a handler run is active -/

/-- The timer but for MATCHFLAG and SYNCBUSY, which are those of `s`. -/
def timerButMatch (s t : State) : Timer :=
  { t.timer with matchFlag := s.timer.matchFlag, syncBusy := s.timer.syncBusy }

/-- A handler run's step reaches of the controller PENDING alone and of the timer MATCHFLAG and SYNCBUSY alone
(60_exceptions.md rule R226). -/
theorem handlerStep_peripherals (s : State) :
    s.handlerStep.ic.enable = s.ic.enable ∧ s.handlerStep.ic.prio = s.ic.prio
      ∧ timerButMatch s s.handlerStep = s.timer ∧ s.handlerStep.world.hostRd = s.world.hostRd := by
  unfold State.handlerStep
  cases s.irq.istep with
  | clearPending => exact ⟨rfl, rfl, rfl, rfl⟩
  | clearMatch => exact ⟨rfl, rfl, rfl, rfl⟩
  | syncMatch => cases hb : s.timer.syncBusy <;> exact ⟨rfl, rfl, rfl, rfl⟩
  | setTick => exact ⟨rfl, rfl, rfl, rfl⟩

/-- Settles O44: of the turns left, IRQH's alone does anything but end the host's wait, and it reaches the interrupt's
state alone. -/
theorem handlerExcludesHostAndSequencer : Obligations.HandlerExcludesHostAndSequencer := by
  intro s t hstep hactive henv hreset
  obtain ⟨tn, ts, hturn, hsched⟩ := step_cases hstep
  rcases takeTurn_cases hturn with ⟨-, -, rfl⟩ | ⟨-, hidle, -⟩ | ⟨a, -, hidle, -⟩ | ⟨-, rfl⟩ | ⟨-, henter, -⟩
    | ⟨e, rfl, -⟩ | ⟨rfl, -⟩ | rfl
  · obtain ⟨henable, hprio, htimer, hrd⟩ := handlerStep_peripherals (s.setSched ts)
    obtain ⟨_, _, _, _, _, he⟩ := (s.setSched ts).handlerStep_eq
    rw [he] at henable hprio htimer hrd ⊢
    exact ⟨rfl, rfl, rfl, rfl, rfl, rfl, rfl, rfl, henable, hprio, htimer, hrd⟩
  · exact absurd hidle (by simp [hactive])
  · exact absurd hidle (by simp [hactive])
  · exact ⟨rfl, rfl, rfl, rfl, rfl, rfl, rfl, rfl, rfl, rfl, rfl, rfl⟩
  · simp [State.canEnterHandler, hactive] at henter
  · rcases hsched with hs | ⟨-, he⟩
    · exact absurd hs (henv e ts)
    · cases he
  · rcases hsched with hs | ⟨-, he⟩
    · exact absurd hs (hreset ts)
    · cases he
  · exact ⟨rfl, rfl, rfl, rfl, rfl, rfl, rfl, rfl, rfl, rfl, rfl, rfl⟩

/-! ### Reset -/

/-- Settles O48: the reset turn leads to `State.systemReset`, whose fields are those of `State.reset` but for the
calibration words and the schedule. -/
theorem resetValues : Obligations.ResetValues := by
  intro s rest hs
  refine ⟨(s.setSched rest).systemReset, by rw [step_cons s _ _ hs]; rfl, rfl, ?_⟩
  rintro u (rfl | rfl) <;> simp [State.systemReset, State.reset, HostReg.empty]

/-- Before the first command nothing of a later TICKRUN is past. -/
theorem not_runPast_of_idle {k : Nat} {s : State} (h : s.seq.busy = false) : ¬ runPast k s := by
  rintro ⟨hb, -⟩
  rw [h] at hb
  cases hb

/-- Settles O49: the first three invariants hold after any system reset, and at reset no command is in progress. -/
theorem invariantsHoldAtReset : Obligations.InvariantsHoldAtReset := by
  refine ⟨fun h => ?_, ?_, ?_, ⟨fun h => ?_, fun _ => ⟨rfl, rfl, rfl, rfl, rfl⟩⟩, ?_, memWf_reset⟩
  · cases h
  · exact tickInv_keptBySequencer.reset State.reset
  · exact adcInv_keptBySequencer.reset State.reset
  · cases h
  · have hpast (k : Nat) : ¬ runPast k State.reset := not_runPast_of_idle rfl
    refine ⟨?_, fun h => absurd h (hpast 1), fun h => absurd h (hpast 4), fun h => absurd h (hpast 6),
      fun h => absurd h (hpast 8), fun h => absurd h (hpast 9), fun h => absurd h (hpast 10),
      fun h => absurd h (hpast 16), fun h => absurd h (hpast 18), fun h => absurd h (hpast 20), ?_⟩ <;>
    · intro h
      cases h

/-! ### The block's turn and the host's accesses -/

/-- Settles O6, from the block's turn on an active command and `current_accept`. -/
theorem blockTurnRunsTheLatchedCommand : Obligations.BlockTurnRunsTheLatchedCommand := by
  have hturn (s : State) (ha : s.irq.active = false) (hb : s.seq.busy = true) : s.blockTurn = exec s.current s := by
    simp [State.blockTurn, ha, hb]
  refine ⟨fun s ha hb hs => ?_, fun s rest ha hb hs => ?_, fun s i hi => current_accept i hi s⟩
  · rw [step_nil s hs, hturn s ha hb]
  · rw [step_cons s _ _ hs]
    exact hturn (s.setSched rest) ha hb

/-- Settles O8, one register at a time by `hostRead_base_add`. -/
theorem windowReadsReturnTheRegisters : Obligations.WindowReadsReturnTheRegisters := by
  intro s hb
  have read (k : Nat) (hk : k % 4 = 0) (hle : k ≤ offTcfg) :
      s.hostAccess (.read (Config.retickBase + k) 4) = .next (s.setHostRd (s.windowRead k)) :=
    hostRead_base_add s k hk hle (.inl hb)
  exact ⟨read 0x00 rfl (by decide), read 0x04 rfl (by decide), read 0x08 rfl (by decide), read 0x0C rfl (by decide),
    read 0x10 rfl (by decide), read 0x14 rfl (by decide), read 0x18 rfl (by decide)⟩

/-- Settles O9: the read by `hostRead_base_add`, the bits by the six flags' values. -/
theorem statusBitsAndItsRead : Obligations.StatusBitsAndItsRead := by
  intro s
  refine ⟨hostRead_base_add s offStatus rfl (by decide) (.inr rfl), ?_⟩
  unfold State.statusWord
  cases s.calErr <;> cases s.cmdErr <;> cases s.tick.started <;> cases s.tick.armed <;> cases s.tickPend
    <;> cases s.seq.busy <;> decide

/-- An idle host's write to a register other than CMD reaches ARG0 alone (20_memory.md rule R61). -/
theorem hostWrite_base_add (s : State) (v : Word) (k : Nat) (hb : s.seq.busy = false) (hk : k % 4 = 0)
    (hle : k ≤ offTcfg) (hcmd : k ≠ offCmd) :
    s.hostWrite (Config.retickBase + k) 4 v = .next (if k = offArg0 then s.setArg0 v else s) := by
  have hadm : admitted (Config.retickBase + k) 4 = true := by simp [admitted_base_add, hk, hle]
  simp only [State.hostWrite, hadm, hb, Nat.add_left_cancel_iff, if_neg hcmd]
  by_cases harg : k = offArg0
  · simp [harg]
  · simp [harg]

/-- Settles O11, one register at a time by `hostWrite_base_add`. -/
theorem windowWritesReachArg0Alone : Obligations.WindowWritesReachArg0Alone := by
  intro s v hb
  constructor
  · exact hostWrite_base_add s v offArg0 hb rfl (by decide) (by decide)
  · intro k hk
    simp only [List.mem_cons, List.not_mem_nil, or_false] at hk
    rcases hk with rfl | rfl | rfl | rfl | rfl <;>
      exact hostWrite_base_add s v _ hb rfl (by decide) (by decide)

/-- Settles O12, each clause by the turn it names. -/
theorem hostWaitsAndIsWoken : Obligations.HostWaitsAndIsWoken := by
  intro s rest
  refine ⟨fun a hs hor => ?_, fun hs ha hw => ?_, fun hs => ?_, fun hs ha hh => ?_⟩
  · have hno : (s.setSched rest).hostCanStep = false := by
      rcases hor with h | h <;> simp [State.hostCanStep, h]
    rw [step_cons s _ _ hs]
    simp [State.takeTurn, State.hostTurn, hno]
  · have hcan : (s.setSched rest).hostCanStep = true := by simp [State.hostCanStep, ha, hw]
    rw [step_cons s _ _ hs]
    simp only [State.takeTurn, State.hostTurn, hcan]
    rfl
  · rw [step_cons s _ _ hs]
    rfl
  · refine ⟨(s.setSched rest).handlerStep, ?_, ?_⟩
    · rw [step_cons s _ _ hs]
      simp [State.takeTurn, State.blockTurn, ha]
    · simp [State.handlerStep, hh]

/-! ### The peripheral port -/

/-- Settles O13, each write by the peripheral it is made to. -/
theorem peripheralWritesTakeEffectAtOnce : Obligations.PeripheralWritesTakeEffectAtOnce := by
  intro s
  have hstart : s.pwrite .adcStart = adcWritten (s.adc.store .adcStart) s := pwrite_adc _ s rfl
  refine ⟨fun _ => pwrite_adc _ s rfl, pwrite_adc _ s rfl, fun _ => pwrite_adc _ s rfl, fun _ => pwrite_adc _ s rfl,
    fun _ => pwrite_adc _ s rfl, fun _ => pwrite_adc _ s rfl, fun _ => pwrite_adc _ s rfl, fun _ => pwrite_adc _ s rfl,
    fun _ => pwrite_adc _ s rfl, fun hon => ?_, fun hoff => ?_, pwrite_adc _ s rfl, ?_⟩
  · rw [hstart, store_start_enabled _ hon]
  · rw [hstart, store_start_disabled _ hoff]
  · exact ⟨fun _ => pwrite_timer _ s rfl, fun _ => pwrite_timer _ s rfl, fun _ => pwrite_timer _ s rfl,
      fun _ => pwrite_timer _ s rfl, fun _ => pwrite_timer _ s rfl, fun _ => pwrite_timer _ s rfl,
      pwrite_timer _ s rfl, pwrite_other _ s rfl, fun _ => pwrite_other _ s rfl, fun _ => pwrite_other _ s rfl,
      fun _ => pwrite_other _ s rfl, fun _ => pwrite_other _ s rfl, fun _ => pwrite_other _ s rfl,
      fun _ => pwrite_other _ s rfl⟩

end Sys2Proof.Machine


/-! The three host registers: every turn is the same whatever they hold, but for them, L_ARG at an acceptance and the
value a host read returns (10_state.md rules R21, R22, 30_encoding.md rule R94). -/

namespace Sys2Proof.Machine

open Sys2Proof.Safety Sys2Proof.Statements

/-! ### Steps and the host registers -/

/-! ### `withRegs` -/

@[simp] theorem withRegs_regs (g : HostRegs) (s : State) : (withRegs g s).regs = g := rfl
@[simp] theorem withRegs_tick (g : HostRegs) (s : State) : (withRegs g s).tick = s.tick := rfl
@[simp] theorem withRegs_tickPend (g : HostRegs) (s : State) : (withRegs g s).tickPend = s.tickPend := rfl
@[simp] theorem withRegs_cmdErr (g : HostRegs) (s : State) : (withRegs g s).cmdErr = s.cmdErr := rfl
@[simp] theorem withRegs_calErr (g : HostRegs) (s : State) : (withRegs g s).calErr = s.calErr := rfl
@[simp] theorem withRegs_seq (g : HostRegs) (s : State) : (withRegs g s).seq = s.seq := rfl
@[simp] theorem withRegs_irq (g : HostRegs) (s : State) : (withRegs g s).irq = s.irq := rfl
@[simp] theorem withRegs_adc (g : HostRegs) (s : State) : (withRegs g s).adc = s.adc := rfl
@[simp] theorem withRegs_timer (g : HostRegs) (s : State) : (withRegs g s).timer = s.timer := rfl
@[simp] theorem withRegs_ic (g : HostRegs) (s : State) : (withRegs g s).ic = s.ic := rfl
@[simp] theorem withRegs_sys (g : HostRegs) (s : State) : (withRegs g s).sys = s.sys := rfl
@[simp] theorem withRegs_mem (g : HostRegs) (s : State) : (withRegs g s).mem = s.mem := rfl
@[simp] theorem withRegs_world (g : HostRegs) (s : State) : (withRegs g s).world = s.world := rfl

/-- A micro-operation with `f` applied to the state it computes, if it computes one. -/
def MicroOp.mapState (f : State → State) : MicroOp → MicroOp
  | .compute t => .compute (f t)
  | op => op

/-- The result of a micro-operation with `f` applied to its state. -/
def MicroResult.mapState (f : State → State) : MicroResult → MicroResult
  | .completes t => .completes (f t)
  | .holds => .holds

/-- A row has the same effect whatever the host registers hold. -/
theorem MicroOp.run_withRegs (g : HostRegs) (op : MicroOp) (s : State) :
    (op.mapState (withRegs g)).run (withRegs g s) = (op.run s).mapState (withRegs g) := by
  have wait (c : Bool) : waitFor c (withRegs g s) = (waitFor c s).mapState (withRegs g) := by cases c <;> rfl
  cases op with
  | pwrite w => cases w <;> rfl
  | syncWait p => cases p <;> exact wait _
  | pollReset => exact wait _
  | pollReady => exact wait _
  | _ => rfl

/-- No row before the last reads a host register. -/
theorem earlierRows_withRegs (g : HostRegs) (i : Instr) (s : State) :
    earlierRows i (withRegs g s) = (earlierRows i s).map (MicroOp.mapState (withRegs g)) := by
  have hreset : adcResetSeq (withRegs g s) = (adcResetSeq s).map (MicroOp.mapState (withRegs g)) := by
    unfold adcResetSeq
    cases hg : s.seq.t0 == 1 <;> simp only [withRegs, hg] <;> rfl
  have hinit : adcInitSeq (withRegs g s) = (adcInitSeq s).map (MicroOp.mapState (withRegs g)) := by
    simp only [adcInitSeq, hreset, List.map_append]
    rfl
  cases i with
  | adcreset => exact hreset
  | adcinit => exact hinit
  | tempinit => exact congrArg (List.cons _) hinit
  | tickrun => unfold earlierRows; cases ha : s.tick.armed <;> simp only [withRegs, ha] <;> rfl
  | _ => rfl

/-- The last row writes host registers and reads none. -/
theorem finalState_withRegs (g : HostRegs) (i : Instr) (s : State) :
    ∃ g', finalState i (withRegs g s) = withRegs g' (finalState i s) := by
  refine ⟨(finalState i (withRegs g s)).regs, ?_⟩
  cases i with
  | tempconv =>
    unfold finalState convertStep
    dsimp only [withRegs]
    split <;> rfl
  | _ => rfl

theorem tableAt_map (f : MicroOp → MicroOp) (table : List MicroOp) (k : Nat) :
    tableAt (table.map f) k = (tableAt table k).map f := by
  cases k with
  | zero => rfl
  | succ k => exact List.getElem?_map

/-- A row that differs in the host registers of its computed state alone answers the same up to them. -/
theorem microStep_withRegs {g g' : HostRegs} {s : State} {table table' : List MicroOp} {op op' : MicroOp}
    (hop : tableAt table s.seq.step = some op) (hop' : tableAt table' s.seq.step = some op')
    (hrun : op'.run (withRegs g s) = (op.run s).mapState (withRegs g')) (hheld : op.run s = .holds → g' = g) :
    (withRegs g s).microStep table' = seenThrough (withRegs g') (s.microStep table) := by
  cases hr : op.run s with
  | completes t =>
    rw [hr] at hrun
    rw [microStep_of_completes hop hr, microStep_of_completes (s := withRegs g s) hop' hrun]
    rfl
  | holds =>
    rw [hr] at hrun
    rw [microStep_of_holds hop hr, microStep_of_holds (s := withRegs g s) hop' hrun, hheld hr]
    rfl

/-- A micro-step of a command is the same up to the host registers whatever they hold. -/
theorem exec_withRegs (g : HostRegs) (i : Instr) (s : State) :
    ∃ g', exec i (withRegs g s) = seenThrough (withRegs g') (exec i s) := by
  rw [exec_eq_microStep, exec_eq_microStep]
  cases hop : tableAt (stepTable i s) s.seq.step with
  | none =>
    have hout : tableAt (stepTable i (withRegs g s)) s.seq.step = none := by
      rw [← Option.not_isSome_iff_eq_none, tableAt_isSome_iff, stepTable_length, ← stepTable_length i s,
        ← tableAt_isSome_iff, hop]
      simp
    exact ⟨g, by simp only [State.microStep, withRegs_seq, hop, hout, seenThrough]⟩
  | some op =>
    obtain ⟨h1, h2⟩ := index_of_tableAt hop
    rw [stepTable_length] at h2
    rcases h2.eq_or_lt with hlast | hlt
    · obtain ⟨g', hg'⟩ := finalState_withRegs g i s
      have hop := hlast ▸ tableAt_last i s
      have hop' := hlast ▸ tableAt_last i (withRegs g s)
      exact ⟨g', microStep_withRegs hop hop' (congrArg MicroResult.completes hg') (fun h => by cases h)⟩
    · have hop' : tableAt (stepTable i (withRegs g s)) s.seq.step = some (op.mapState (withRegs g)) := by
        rw [tableAt_earlier i s _ h1 hlt] at hop
        rw [tableAt_earlier i _ _ h1 hlt, earlierRows_withRegs, tableAt_map, hop]
        rfl
      exact ⟨g, microStep_withRegs hop hop' (op.run_withRegs g s) (fun _ => rfl)⟩

theorem handlerStep_withRegs (g : HostRegs) (s : State) :
    (withRegs g s).handlerStep = withRegs g s.handlerStep := by
  unfold State.handlerStep
  cases hi : s.irq.istep with
  | syncMatch => cases hb : s.timer.syncBusy <;> simp only [withRegs_irq, withRegs_timer, hi, hb] <;> rfl
  | _ => simp only [withRegs_irq, hi]; rfl

theorem divTick_withRegs (g : HostRegs) (s : State) : (withRegs g s).divTick = withRegs g s.divTick := by
  unfold State.divTick
  by_cases hc : s.timer.count = s.timer.top <;> simp [hc] <;> rfl

theorem envStep_withRegs (g : HostRegs) (e : EnvStep) (s : State) :
    (withRegs g s).envStep e = withRegs g (s.envStep e) := by
  cases e with
  | syncClear p => cases p <;> rfl
  | adcReset d => cases hr : s.adc.swrst <;> simp only [State.envStep, withRegs_adc, hr] <;> rfl
  | adcConv v => cases hc : s.adc.converting && s.adc.enable <;> simp only [State.envStep, withRegs_adc, hc] <;> rfl
  | timerTick =>
    have hruns : (withRegs g s).timerRuns = s.timerRuns := rfl
    cases hr : s.timerRuns <;> simp [State.envStep, hruns, hr, divTick_withRegs]

/-- A turn that is not the host's is the same up to the host registers whatever they hold. -/
theorem takeTurn_withRegs (g : HostRegs) (s : State) {tn : Turn} (hhost : ∀ a, tn ≠ .host a) :
    ∃ g', (withRegs g s).takeTurn tn = seenThrough (withRegs g') (s.takeTurn tn) := by
  cases tn with
  | block =>
    have hirq : (withRegs g s).irq = s.irq := rfl
    have hseq : (withRegs g s).seq = s.seq := rfl
    simp only [State.takeTurn, State.blockTurn, hirq, hseq]
    cases s.irq.active with
    | true => exact ⟨g, congrArg Host.Outcome.next (handlerStep_withRegs g s)⟩
    | false =>
      cases s.seq.busy with
      | true => exact exec_withRegs g s.current s
      | false => exact ⟨g, rfl⟩
  | host a => exact absurd rfl (hhost a)
  | wake => exact ⟨g, rfl⟩
  | irqStart =>
    have hcan : (withRegs g s).canEnterHandler = s.canEnterHandler := rfl
    refine ⟨g, ?_⟩
    cases hc : s.canEnterHandler <;> simp only [State.takeTurn, State.tryEnterHandler, hcan, hc] <;> rfl
  | env e => exact ⟨g, congrArg Host.Outcome.next (envStep_withRegs g e s)⟩
  | reset => exact ⟨State.reset.regs, rfl⟩

/-- An offered word leads to the same whatever the host registers hold, but for them and L_ARG. -/
theorem offerCommand_withRegs (g : HostRegs) (w : Word) (s : State) :
    withoutOperand ((withRegs g s).offerCommand w) = withoutOperand (s.offerCommand w) := by
  cases hb : s.seq.busy with
  | true => simp only [State.offerCommand, withRegs_seq, hb]; rfl
  | false =>
    cases hd : decodeWord w with
    | error _ => simp only [State.offerCommand, withRegs_seq, hb, hd]; rfl
    | ok i =>
      rw [offerCommand_accept hb hd, offerCommand_accept (s := withRegs g s) hb hd]
      cases i <;> rfl

/-- A host access is the same whatever the host registers hold, but for them, L_ARG and the value read. -/
theorem hostAccess_withRegs (g : HostRegs) (a : HostAccess) (s : State) :
    seenThrough withoutOperand ((withRegs g s).hostAccess a) = seenThrough withoutOperand (s.hostAccess a) := by
  cases a with
  | read addr size =>
    cases hadm : admitted addr size <;> cases hb : s.seq.busy && addr != Config.retickBase + offStatus <;>
      simp only [State.hostAccess, State.hostRead, withRegs_seq, hadm, hb] <;> rfl
  | write addr size v =>
    by_cases hcmd : addr = Config.retickBase + offCmd
    · cases hadm : admitted addr size <;>
        simp only [State.hostAccess, State.hostWrite, hadm, if_pos hcmd]
      · rfl
      · exact congrArg Host.Outcome.next (offerCommand_withRegs g v s)
    · cases hadm : admitted addr size with
      | false => simp only [State.hostAccess, State.hostWrite, hadm]; rfl
      | true =>
        cases hb : s.seq.busy with
        | true => simp only [State.hostAccess, State.hostWrite, withRegs_seq, hadm, if_neg hcmd, hb]; rfl
        | false =>
          by_cases harg : addr = Config.retickBase + offArg0
          · simp only [State.hostAccess, State.hostWrite, withRegs_seq, hadm, if_neg hcmd, hb, if_pos harg]; rfl
          · simp only [State.hostAccess, State.hostWrite, withRegs_seq, hadm, if_neg hcmd, hb, if_neg harg]; rfl
  | wait => rfl

theorem seenThrough_seenThrough (f h : State → State) (o : Host.Outcome State Fault Refusal) :
    seenThrough f (seenThrough h o) = seenThrough (f ∘ h) o := by
  cases o <;> rfl

/-- Every turn is the same whatever the host registers hold, but for them, L_ARG and the value read. -/
theorem takeTurn_withoutOperand (g : HostRegs) (s : State) (tn : Turn) :
    seenThrough withoutOperand ((withRegs g s).takeTurn tn) = seenThrough withoutOperand (s.takeTurn tn) := by
  by_cases hhost : ∃ a, tn = .host a
  · obtain ⟨a, rfl⟩ := hhost
    have hcan : (withRegs g s).hostCanStep = s.hostCanStep := rfl
    simp only [State.takeTurn, State.hostTurn, hcan]
    split
    · exact hostAccess_withRegs g a s
    · rfl
  · obtain ⟨g', hg'⟩ := takeTurn_withRegs g s (fun a ha => hhost ⟨a, ha⟩)
    rw [hg', seenThrough_seenThrough]
    rfl

/-- A host access that answers a next state leaves SEQ alone, or it is the write of CMD by which an idle block accepts a
command (30_encoding.md rule R97). -/
theorem hostAccess_seq {a : HostAccess} {s t : State} (h : s.hostAccess a = .next t) :
    t.seq = s.seq ∨ ∃ w i, a = .write Config.retickBase 4 w ∧ s.seq.busy = false ∧ decodeWord w = .ok i := by
  cases a with
  | read addr size =>
    simp only [State.hostAccess, State.hostRead] at h
    split at h
    · cases h
    · split at h <;> cases h
      exact .inl rfl
  | write addr size v =>
    simp only [State.hostAccess, State.hostWrite] at h
    split at h
    · cases h
    · rename_i hadm
      have hsize : size = 4 := by
        by_contra hne
        exact hadm (by simp [admitted, hne])
      split at h
      · rename_i hcmd
        cases h
        rcases offerCommand_cases v s with he | ⟨hb, i, hi, -⟩
        · exact .inl (by rw [he]; rfl)
        · exact .inr ⟨v, i, by rw [hcmd, hsize]; rfl, hb, hi⟩
      · split at h
        · cases h
        · split at h <;> cases h <;> exact .inl rfl
  | wait => cases h; exact .inl rfl

/-- What L_ARG holds after an acceptance (30_encoding.md rule R94). -/
theorem accept_lArg (i : Instr) (s : State) :
    (s.accept i).seq.lArg = if takesArg0 i then s.regs.arg0.value else s.seq.lArg := by
  cases i <;> rfl

/-- Where a turn leaves another L_ARG for other host registers, it is the acceptance of a format P command. -/
theorem takeTurn_lArg {g : HostRegs} {s t t' : State} {tn : Turn} (h : s.takeTurn tn = .next t)
    (h' : (withRegs g s).takeTurn tn = .next t') (hne : t.seq.lArg ≠ t'.seq.lArg) :
    ∃ w i, tn = call w ∧ decodeWord w = .ok i ∧ takesArg0 i = true
      ∧ t.seq.lArg = s.regs.arg0.value ∧ t'.seq.lArg = g.arg0.value := by
  by_cases hhost : ∃ a, tn = .host a
  · obtain ⟨a, rfl⟩ := hhost
    have hcan : (withRegs g s).hostCanStep = s.hostCanStep := rfl
    simp only [State.takeTurn, State.hostTurn, hcan] at h h'
    cases hc : s.hostCanStep with
    | false =>
      simp only [hc] at h h'
      cases h
      cases h'
      exact absurd rfl hne
    | true =>
      simp only [hc, if_true] at h h'
      obtain ⟨w, i, rfl, hb, hi⟩ : ∃ w i, a = .write Config.retickBase 4 w ∧ s.seq.busy = false
          ∧ decodeWord w = .ok i := by
        rcases hostAccess_seq h with hseq | hacc
        · rcases hostAccess_seq h' with hseq' | hacc
          · exact absurd (by rw [hseq, hseq']; rfl) hne
          · exact hacc
        · exact hacc
      simp only [State.hostAccess, hostWrite_cmd, offerCommand_accept hb hi,
        offerCommand_accept (s := withRegs g s) hb hi] at h h'
      cases h
      cases h'
      rw [accept_lArg, accept_lArg] at hne ⊢
      cases hp : takesArg0 i with
      | true => exact ⟨w, i, rfl, hi, hp, rfl, rfl⟩
      | false => simp [hp] at hne
  · obtain ⟨g', hg'⟩ := takeTurn_withRegs g s (fun a ha => hhost ⟨a, ha⟩)
    rw [h, h'] at hg'
    cases hg'
    exact absurd rfl hne

/-- Settles O60: the three clauses of one turn, which the schedule alone chooses. -/
theorem hostRegistersReachTheHostAndLArgAlone : Obligations.HostRegistersReachTheHostAndLArgAlone := by
  intro s g
  obtain ⟨tn, ts, hsched, hstep⟩ := step_turn s
  have hleft : step s = (s.setSched ts).takeTurn tn := hstep s rfl
  have hright : step (withRegs g s) = (withRegs g (s.setSched ts)).takeTurn tn := hstep (withRegs g s) rfl
  rw [hleft, hright]
  refine ⟨(takeTurn_withoutOperand g _ tn).symm, fun hhost => ?_, fun t t' h h' hne => ?_⟩
  · have hne (a : HostAccess) : tn ≠ .host a := by
      rintro rfl
      rcases hsched with hs | ⟨-, he⟩
      · exact hhost a ts hs
      · cases he
    obtain ⟨g', hg'⟩ := takeTurn_withRegs g (s.setSched ts) hne
    rw [hg', seenThrough_seenThrough]
    rfl
  · obtain ⟨w, i, rfl, hi, hp, ht, ht'⟩ := takeTurn_lArg h h' hne
    rcases hsched with hs | ⟨-, he⟩
    · exact ⟨w, i, ts, hs, hi, hp, ht, ht'⟩
    · cases he

end Sys2Proof.Machine


/-! A whole TICKRUN: its table written out, its rows under a schedule that releases each wait, and the run they make
(42_tick.md rules R187 to R191). -/

namespace Sys2Proof.Machine

open Sys2Proof.Safety Sys2Proof.Statements

/-! ### Runs -/

/-- `n` steps lead from `s` to `t`, whatever is run from there. -/
def Runs (n : Nat) (s t : State) : Prop := ∀ k, Host.Core.run core (n + k) s = Host.Core.run core k t

theorem Runs.trans {n m : Nat} {s t u : State} (h : Runs n s t) (h' : Runs m t u) : Runs (n + m) s u := fun k => by
  rw [Nat.add_assoc, h, h']

theorem Runs.run_eq {n : Nat} {s t : State} (h : Runs n s t) : Host.Core.run core n s = .next t := h 0

theorem runs_of_turn {s t : State} {tn : Turn} {ts : List Turn} (hs : s.world.sched = tn :: ts)
    (h : (s.setSched ts).takeTurn tn = .next t) : Runs 1 s t := fun k => by
  rw [Nat.add_comm]
  exact run_succ_of_turn k hs h

/-! ### TICKRUN's rows -/

/-- A row of the setup, which is skipped where ARMED = 1 (42_tick.md rule R188). -/
def setupRow (s : State) (op : MicroOp) : MicroOp := if s.tick.armed then .nop else op

/-- TICKRUN's table written out (42_tick.md rules R187, R188, R190). -/
def tickrunRows (s : State) : List MicroOp :=
  [setupRow s (.pwrite (.sysTimerClk true)), setupRow s (.pwrite (.timerPrescaler 0)), setupRow s (.syncWait .timer),
   setupRow s (.pwrite (.timerMode .countOnMatch)), setupRow s (.syncWait .timer),
   setupRow s (.pwrite (.timerIntEn true)), setupRow s (.syncWait .timer), setupRow s (.pwrite (.icPrio .lowest)),
   setupRow s (.pwrite (.icEnable true)), setupRow s (.compute s.setArmed),
   .pwrite (.timerEnable false), .syncWait .timer, .compute (s.applyPeriod s.seq.lArg), .pwrite (.timerCount 0),
   .syncWait .timer, .pwrite (.timerPrescaler s.tick.divShift), .syncWait .timer, .pwrite (.timerTop s.tick.top),
   .syncWait .timer, .pwrite (.timerEnable true), .syncWait .timer, .compute (returnFirst s)]

theorem stepTable_tickrun (s : State) : stepTable .tickrun s = tickrunRows s := by
  unfold stepTable tickrunRows setupRow
  cases s.tick.armed <;> rfl

theorem setupRow_of_first {s : State} (h : s.tick.armed = false) (op : MicroOp) : setupRow s op = op := by
  simp [setupRow, h]

theorem setupRow_of_later {s : State} (h : s.tick.armed = true) (op : MicroOp) : setupRow s op = .nop := by
  simp [setupRow, h]

/-! ### TICKRUN under a schedule -/

/-- What TICKRUN's rows before the last write. -/
structure TickFields where
  tick : TickTimer
  timer : Timer
  ic : IntCtl
  sys : SysFields

/-- `s` with TICKRUN at STEP `k`, `m` in what it writes and `w` in the model's own fields. -/
def State.inTickrun (s : State) (k : Nat) (w : World) (m : TickFields) : State :=
  { s with tick := m.tick, timer := m.timer, ic := m.ic, sys := m.sys, seq := { s.seq with step := k }, world := w }

/-- In `n` steps the turns `ts` are used up to `ts'` and TICKRUN gets from STEP `k` with `m` to STEP `k'` with `m'`. -/
def Leads (s : State) (n : Nat) (ts : List Turn) (k : Nat) (m : TickFields) (ts' : List Turn) (k' : Nat)
    (m' : TickFields) : Prop :=
  ∀ w : World, w.sched = ts → ∃ w' : World, w'.sched = ts' ∧ Runs n (s.inTickrun k w m) (s.inTickrun k' w' m')

theorem Leads.trans {s : State} {n n' k k' k'' : Nat} {ts ts' ts'' : List Turn} {m m' m'' : TickFields}
    (h : Leads s n ts k m ts' k' m') (h' : Leads s n' ts' k' m' ts'' k'' m'') :
    Leads s (n + n') ts k m ts'' k'' m'' := by
  intro w hw
  obtain ⟨w', hw', hr⟩ := h w hw
  obtain ⟨w'', hw'', hr'⟩ := h' w' hw'
  exact ⟨w'', hw'', hr.trans hr'⟩

/-- A TICKRUN is in progress and no handler run is active. -/
structure TickrunActive (s : State) : Prop where
  noHandler : s.irq.active = false
  busy : s.seq.busy = true
  cur : s.seq.cur = .tickrun

/-- A row that completes takes one step. -/
theorem TickrunActive.runs_row {s u : State} {k : Nat} {w : World} {m : TickFields} {ts : List Turn} {op : MicroOp}
    (h : TickrunActive s) (hw : w.sched = .block :: ts)
    (hop : tableAt (tickrunRows (s.inTickrun k { w with sched := ts } m)) k = some op)
    (hrun : op.run (s.inTickrun k { w with sched := ts } m) = .completes u) :
    Runs 1 (s.inTickrun k w m) u.advance := by
  refine runs_of_turn hw ?_
  have hstate : (s.inTickrun k w m).setSched ts = s.inTickrun k { w with sched := ts } m := rfl
  have hturn : (s.inTickrun k { w with sched := ts } m).blockTurn
      = exec .tickrun (s.inTickrun k { w with sched := ts } m) := by
    rw [← current_eq_tickrun (s := s.inTickrun k { w with sched := ts } m) h.cur]
    simp [State.blockTurn, State.inTickrun, h.noHandler, h.busy]
  rw [hstate, State.takeTurn, hturn, exec_eq_microStep, stepTable_tickrun]
  exact microStep_of_completes hop hrun

/-- A row of one step that leaves the model's own fields alone. -/
theorem TickrunActive.row {s : State} {k : Nat} {m m' : TickFields} {ts : List Turn}
    {op : World → MicroOp} (h : TickrunActive s)
    (hop : ∀ w, tableAt (tickrunRows (s.inTickrun k w m)) k = some (op w))
    (hrun : ∀ w, (op w).run (s.inTickrun k w m) = .completes (s.inTickrun k w m')) :
    Leads s 1 (.block :: ts) k m ts (k + 1) m' :=
  fun w hw => ⟨{ w with sched := ts }, rfl, h.runs_row hw (hop _) (hrun _)⟩

/-- ENV-SYNC on the timer between two rows. -/
theorem leads_syncClear (s : State) (k : Nat) (m : TickFields) (ts : List Turn) :
    Leads s 1 (.env (.syncClear .timer) :: ts) k m ts k { m with timer := { m.timer with syncBusy := false } } :=
  fun w hw => ⟨{ w with sched := ts }, rfl, runs_of_turn hw rfl⟩

/-- A row of TICKRUN that writes a controller or system field. -/
theorem run_otherWrite (s : State) (k : Nat) (w : World) (m : TickFields) {wr : FieldWrite} (hwr : wr.periph = none) :
    (MicroOp.pwrite wr).run (s.inTickrun k w m)
      = .completes (s.inTickrun k w { m with ic := m.ic.store wr, sys := m.sys.store wr }) :=
  congrArg MicroResult.completes (pwrite_other wr _ hwr)

/-- A wait of TICKRUN that the clear busy bit lets pass. -/
theorem run_timerWait (s : State) (k : Nat) (w : World) (m : TickFields) (hclear : m.timer.syncBusy = false) :
    (MicroOp.syncWait .timer).run (s.inTickrun k w m) = .completes (s.inTickrun k w m) := by
  have hsync : (s.inTickrun k w m).syncBusy .timer = false := hclear
  simp [run_syncWait, hsync]

/-- A `PWriteS` of TICKRUN takes three turns where the busy bit falls between the write and the wait. -/
theorem TickrunActive.writeSync {s : State} {k : Nat} {m : TickFields} {ts : List Turn} {wr : FieldWrite}
    (h : TickrunActive s) (hwr : wr.periph = some .timer)
    (hop : ∀ w, tableAt (tickrunRows (s.inTickrun k w m)) k = some (.pwrite wr))
    (hop' : ∀ w tm, tableAt (tickrunRows (s.inTickrun (k + 1) w { m with timer := tm })) (k + 1)
      = some (.syncWait .timer)) :
    Leads s 3 (.block :: .env (.syncClear .timer) :: .block :: ts) k m ts (k + 2)
      { m with timer := { m.timer.store wr with syncBusy := false } } := by
  intro w hw
  have hwrite := h.runs_row hw (hop _) (congrArg MicroResult.completes (pwrite_timer wr _ hwr))
  obtain ⟨w', hw', hclear⟩ := leads_syncClear s (k + 1)
    { m with timer := { m.timer.store wr with syncBusy := Config.syncDraw w.draws } } (.block :: ts)
    { w with sched := .env (.syncClear .timer) :: .block :: ts, draws := w.draws + 1 } rfl
  obtain ⟨w'', hw'', hwait⟩ := h.row (hop' · { m.timer.store wr with syncBusy := false })
    (fun w => run_timerWait s _ w _ rfl) w' hw'
  exact ⟨w'', hw'', (hwrite.trans hclear).trans hwait⟩

/-- A skipped `PWriteS` of TICKRUN. -/
theorem TickrunActive.skipSync {s : State} {k : Nat} {m : TickFields} {ts : List Turn} (h : TickrunActive s)
    (hop : ∀ w, tableAt (tickrunRows (s.inTickrun k w m)) k = some .nop)
    (hop' : ∀ w tm, tableAt (tickrunRows (s.inTickrun (k + 1) w { m with timer := tm })) (k + 1) = some .nop) :
    Leads s 3 (.block :: .env (.syncClear .timer) :: .block :: ts) k m ts (k + 2)
      { m with timer := { m.timer with syncBusy := false } } :=
  ((h.row hop fun _ => rfl).trans (leads_syncClear s (k + 1) m _)).trans (h.row (hop' · _) fun _ => rfl)

/-- The turns of `TICK_SETUP_SEQ`, each wait released. -/
def setupTurns : List Turn := [Turn.block] ++ pairs .timer 3 ++ [Turn.block, Turn.block, Turn.block]

/-- The turns of `TICK_ARM_SEQ`, each wait released. -/
def armTurns : List Turn := pairs .timer 1 ++ [Turn.block] ++ pairs .timer 4

/-- What `TICK_SETUP_SEQ` leaves, with `p` in TIMER.PRESCALER (42_tick.md rule R187). -/
def TickFields.setUp (p : BitVec 4) (m : TickFields) : TickFields :=
  { tick := { m.tick with armed := true }
    timer := { m.timer with prescaler := p, mode := .countOnMatch, intEn := true, syncBusy := false }
    ic := { m.ic with enable := true, prio := .lowest }
    sys := { m.sys with timerClk := true } }

/-- The setup of a first TICKRUN. -/
theorem TickrunActive.setup_first {s : State} {m : TickFields} {ts : List Turn} (h : TickrunActive s)
    (ha : m.tick.armed = false) : Leads s 13 (setupTurns ++ ts) 1 m ts 11 (m.setUp 0) := by
  have row (k : Nat) (w : World) (m' : TickFields) (hm : m'.tick = m.tick) (op : MicroOp) :
      some (setupRow (s.inTickrun k w m') op) = some op :=
    congrArg some (setupRow_of_first ((congrArg TickTimer.armed hm).trans ha) op)
  have clock := h.row (k := 1) (m := m) (op := fun _ => .pwrite (.sysTimerClk true))
    (ts := pairs .timer 3 ++ ([Turn.block, Turn.block, Turn.block] ++ ts))
    (fun w => row 1 w m rfl _) (fun w => run_otherWrite s 1 w m rfl)
  have prescaler := clock.trans (h.writeSync (wr := .timerPrescaler 0) rfl
    (fun w => row 2 w _ rfl _) (fun w _ => row 3 w _ rfl _))
  have mode := prescaler.trans (h.writeSync (wr := .timerMode .countOnMatch) rfl
    (fun w => row 4 w _ rfl _) (fun w _ => row 5 w _ rfl _))
  have intEn := mode.trans (h.writeSync (wr := .timerIntEn true) rfl
    (fun w => row 6 w _ rfl _) (fun w _ => row 7 w _ rfl _))
  have prio := intEn.trans (h.row (op := fun _ => .pwrite (.icPrio .lowest))
    (fun w => row 8 w _ rfl _) (fun w => run_otherWrite s 8 w _ rfl))
  have enable := prio.trans (h.row (op := fun _ => .pwrite (.icEnable true))
    (fun w => row 9 w _ rfl _) (fun w => run_otherWrite s 9 w _ rfl))
  exact enable.trans (h.row (op := fun w => .compute (s.inTickrun 10 w _).setArmed)
    (fun w => row 10 w _ rfl _) (fun _ => rfl))

/-- The rows of the setup of a later TICKRUN are skipped; the timer's busy bit falls meanwhile. -/
theorem TickrunActive.setup_later {s : State} {m : TickFields} {ts : List Turn} (h : TickrunActive s)
    (ha : m.tick.armed = true) :
    Leads s 13 (setupTurns ++ ts) 1 m ts 11 { m with timer := { m.timer with syncBusy := false } } := by
  have row (k : Nat) (w : World) (m' : TickFields) (hm : m'.tick = m.tick) (op : MicroOp) :
      some (setupRow (s.inTickrun k w m') op) = some .nop :=
    congrArg some (setupRow_of_later ((congrArg TickTimer.armed hm).trans ha) op)
  have clock := h.row (k := 1) (m := m) (ts := pairs .timer 3 ++ ([Turn.block, Turn.block, Turn.block] ++ ts))
    (fun w => row 1 w m rfl _) (fun _ => rfl)
  have prescaler := clock.trans (h.skipSync (fun w => row 2 w _ rfl _) (fun w _ => row 3 w _ rfl _))
  have mode := prescaler.trans (h.skipSync (fun w => row 4 w _ rfl _) (fun w _ => row 5 w _ rfl _))
  have intEn := mode.trans (h.skipSync (fun w => row 6 w _ rfl _) (fun w _ => row 7 w _ rfl _))
  have prio := intEn.trans (h.row (fun w => row 8 w _ rfl _) (fun _ => rfl))
  have enable := prio.trans (h.row (fun w => row 9 w _ rfl _) (fun _ => rfl))
  exact enable.trans (h.row (fun w => row 10 w _ rfl _) (fun _ => rfl))

/-- The setup of TICKRUN, the first one or a later one, leaves what `TICK_SETUP_SEQ` does, if it stands where it is
skipped. -/
theorem TickrunActive.setup {s : State} {m : TickFields} {ts : List Turn} (h : TickrunActive s)
    (hstands : m.tick.armed = true → m.timer.mode = .countOnMatch ∧ m.timer.intEn = true ∧ m.ic.enable = true
      ∧ m.ic.prio = .lowest ∧ m.sys.timerClk = true) :
    ∃ p, Leads s 13 (setupTurns ++ ts) 1 m ts 11 (m.setUp p) := by
  cases ha : m.tick.armed with
  | false => exact ⟨0, h.setup_first ha⟩
  | true =>
    obtain ⟨hmode, hint, henable, hprio, hclk⟩ := hstands ha
    refine ⟨m.timer.prescaler, ?_⟩
    have hsame : m.setUp m.timer.prescaler = { m with timer := { m.timer with syncBusy := false } } := by
      rcases m with ⟨⟨⟩, ⟨⟩, ⟨⟩, ⟨⟩⟩
      simp_all [TickFields.setUp]
    rw [hsame]
    exact h.setup_later ha

/-- What row a2 leaves for the period `p` (42_tick.md rule R190). -/
def TickFields.withPeriod (p : Word) (m : TickFields) : TickFields :=
  { m with
    tick := { m.tick with
      periodMs := p
      divShift := (computePeriod Config.clkCyclesPerMs p).1
      top := (computePeriod Config.clkCyclesPerMs p).2 } }

/-- What `TICK_ARM_SEQ` leaves for the period `p` (42_tick.md rule R190). -/
def TickFields.rearmed (p : Word) (m : TickFields) : TickFields :=
  { m.withPeriod p with
    timer := { m.timer with
      enable := true
      count := 0
      prescaler := (computePeriod Config.clkCyclesPerMs p).1
      top := (computePeriod Config.clkCyclesPerMs p).2
      syncBusy := false } }

theorem TickrunActive.period {s : State} {m : TickFields} {ts : List Turn} (h : TickrunActive s) :
    Leads s 1 (.block :: ts) 13 m ts 14 (m.withPeriod s.seq.lArg) :=
  h.row (op := fun w => .compute ((s.inTickrun 13 w m).applyPeriod s.seq.lArg)) (fun _ => rfl) (fun _ => rfl)

/-- The arm sequence of TICKRUN. -/
theorem TickrunActive.armSeq {s : State} {m : TickFields} {ts : List Turn} (h : TickrunActive s) :
    Leads s 16 (armTurns ++ ts) 11 m ts 22 (m.rearmed s.seq.lArg) := by
  have off := h.writeSync (k := 11) (m := m) (wr := .timerEnable false)
    (ts := [Turn.block] ++ pairs .timer 4 ++ ts) rfl (fun _ => rfl) (fun _ _ => rfl)
  have period := off.trans h.period
  have count := period.trans (h.writeSync (wr := .timerCount 0) rfl (fun _ => rfl) (fun _ _ => rfl))
  have prescaler := count.trans (h.writeSync
    (wr := .timerPrescaler (computePeriod Config.clkCyclesPerMs s.seq.lArg).1) rfl (fun _ => rfl) (fun _ _ => rfl))
  have top := prescaler.trans (h.writeSync
    (wr := .timerTop (computePeriod Config.clkCyclesPerMs s.seq.lArg).2) rfl (fun _ => rfl) (fun _ _ => rfl))
  exact top.trans (h.writeSync (wr := .timerEnable true) rfl (fun _ => rfl) (fun _ _ => rfl))

/-- What TICKRUN writes, as it stands in `s`. -/
def State.tickFields (s : State) : TickFields := ⟨s.tick, s.timer, s.ic, s.sys⟩

/-- A TICKRUN at its first row completes in the thirty turns of its table. -/
theorem TickrunActive.runs_to_end {s : State} {rest : List Turn} (h : TickrunActive s) (hstep : s.seq.step = 1)
    (hsched : s.world.sched = setupTurns ++ (armTurns ++ .block :: rest))
    (hstands : s.tick.armed = true → s.timer.mode = .countOnMatch ∧ s.timer.intEn = true ∧ s.ic.enable = true
      ∧ s.ic.prio = .lowest ∧ s.sys.timerClk = true) :
    ∃ p w, w.sched = rest
      ∧ Runs 30 s (returnFirst (s.inTickrun 22 w ((s.tickFields.setUp p).rearmed s.seq.lArg))).advance := by
  obtain ⟨p, hsetup⟩ := h.setup (m := s.tickFields) (ts := armTurns ++ .block :: rest) hstands
  obtain ⟨w, hw, hrun⟩ := (hsetup.trans h.armSeq) s.world hsched
  have hstart : s.inTickrun 1 s.world s.tickFields = s := by rw [← hstep]; rfl
  rw [hstart] at hrun
  exact ⟨p, { w with sched := rest }, rfl, hrun.trans (h.runs_row hw rfl rfl)⟩

/-- An idle block accepts the host's call of TICKRUN. -/
theorem runs_call_tickrun {s : State} {ts : List Turn} (hidle : idle s) (hs : s.world.sched = call 0x31 :: ts) :
    Runs 1 s ((s.setSched ts).accept .tickrun) := by
  obtain ⟨hcan, hb⟩ := hidle
  have hcan' : (s.setSched ts).hostCanStep = true := hcan
  have hdecode : decodeWord 0x31 = .ok .tickrun := rfl
  refine runs_of_turn hs ?_
  simp only [call, State.takeTurn, State.hostTurn, hcan', State.hostAccess, hostWrite_cmd, if_true]
  rw [offerCommand_accept (s := s.setSched ts) hb hdecode]

/-- The first-invocation indicator (42_tick.md rule R189). -/
theorem wordOfBool_not (b : Bool) : wordOfBool (!b) = if b then 0 else 1 := by cases b <;> rfl

/-- Settles O39: the host's call, then the setup, the arm sequence and row u3 in the thirty turns of the table. -/
theorem tickrunCallCompletes : Obligations.TickrunCallCompletes := by
  intro s rest hidle hsched hstands
  have hactive : s.irq.active = false := by
    obtain ⟨hcan, -⟩ := hidle
    simp only [State.hostCanStep, Bool.and_eq_true, Bool.not_eq_true'] at hcan
    obtain ⟨hactive, -⟩ := hcan
    exact hactive
  have hcall := runs_call_tickrun hidle (ts := setupTurns ++ (armTurns ++ .block :: rest)) hsched
  have htickrun : TickrunActive ((s.setSched (setupTurns ++ (armTurns ++ .block :: rest))).accept .tickrun) :=
    ⟨hactive, rfl, rfl⟩
  obtain ⟨p, w, hw, hruns⟩ := htickrun.runs_to_end rfl rfl hstands
  refine ⟨_, (hcall.trans hruns).run_eq, rfl, hw, rfl, ?_, rfl, rfl, rfl, rfl, rfl, rfl, rfl, rfl, rfl⟩
  show ({ s.regs with res0 := HostReg.holding (wordOfBool (!s.tick.started)) } : HostRegs) = _
  rw [wordOfBool_not]
  rfl

end Sys2Proof.Machine

/-! Every micro-step of the commands: what a command answers whenever STEP names a row, read from the rows of its step table
(10_state.md rule R29). The whole calls are run on these statements. -/

namespace Sys2Proof.Machine

open Sys2Proof.Safety Sys2Proof.Statements

/-! ### From the row of a table to what the command answers -/

section
variable {i : Instr} {k : Nat}

theorem completesAt_of_row {f : State → State} {op : State → MicroOp}
    (hop : ∀ s, tableAt (stepTable i s) k = some (op s)) (hrun : ∀ s, (op s).run s = .completes (f s)) :
    completesAt i k f := by
  rintro s rfl
  rw [exec_eq_microStep]
  exact microStep_of_completes (hop s) (hrun s)

theorem waitsAt_of_row {c : State → Bool} {op : State → MicroOp}
    (hop : ∀ s, tableAt (stepTable i s) k = some (op s)) (hrun : ∀ s, (op s).run s = waitFor (c s) s) :
    waitsAt i k c := by
  rintro s rfl
  have hrun := hrun s
  rw [exec_eq_microStep]
  cases hc : c s <;> rw [hc] at hrun
  · exact microStep_of_holds (hop s) hrun
  · exact microStep_of_completes (hop s) hrun

theorem writesAt_of_row {w : FieldWrite} (hop : ∀ s, tableAt (stepTable i s) k = some (.pwrite w)) : writesAt i k w :=
  completesAt_of_row hop fun _ => rfl

theorem writesSyncAt_of_rows {p : Periph} {w : FieldWrite}
    (hwrite : ∀ s, tableAt (stepTable i s) k = some (.pwrite w))
    (hwait : ∀ s, tableAt (stepTable i s) (k + 1) = some (.syncWait p)) : writesSyncAt i k p w :=
  ⟨writesAt_of_row hwrite, waitsAt_of_row hwait fun _ => rfl⟩

/-- A micro-operation under a guard: a no-op where the guard is false (10_state.md rule R29). -/
def guardedRow (g : Bool) (op : MicroOp) : MicroOp := if g then op else .nop

theorem writesWhenAt_of_row {g : State → Bool} {w : FieldWrite}
    (hop : ∀ s, tableAt (stepTable i s) k = some (guardedRow (g s) (.pwrite w))) : writesWhenAt i k g w :=
  completesAt_of_row hop fun s => by cases g s <;> rfl

theorem writesSyncWhenAt_of_rows {g : State → Bool} {p : Periph} {w : FieldWrite}
    (hwrite : ∀ s, tableAt (stepTable i s) k = some (guardedRow (g s) (.pwrite w)))
    (hwait : ∀ s, tableAt (stepTable i s) (k + 1) = some (guardedRow (g s) (.syncWait p))) :
    writesSyncWhenAt i k g p w :=
  ⟨writesWhenAt_of_row hwrite, waitsAt_of_row hwait fun s => by cases g s <;> rfl⟩

end

/-- The last row of every table leaves the command's final state. -/
theorem completesAt_last (i : Instr) : completesAt i (tableLength (opcodeOf i)) (finalState i) :=
  completesAt_of_row (tableAt_last i) fun _ => rfl

/-! ### ADC_RESET_SEQ and ADC_CONV_SEQ -/

/-- `ADC_RESET_SEQ` written out, r2 under its guard (40_adc.md rule R122). -/
def adcResetRows (s : State) : List MicroOp :=
  [.readEnable, guardedRow (s.seq.t0 == 1) (.pwrite (.adcEnable false)),
   guardedRow (s.seq.t0 == 1) (.syncWait .adc), .pwrite .adcSwrst, .pollReset]

theorem adcResetSeq_eq_rows (s : State) : adcResetSeq s = adcResetRows s := by
  unfold adcResetSeq adcResetRows
  cases s.seq.t0 == 1 <;> rfl

/-- A command whose table holds `ADC_RESET_SEQ` after `o` micro-steps answers its rows there. -/
theorem resetRowsAt_of_table {i : Instr} {o : Nat}
    (h : ∀ s k, 1 ≤ k → k ≤ 5 → tableAt (stepTable i s) (o + k) = tableAt (adcResetSeq s) k) : resetRowsAt i o := by
  have row (s : State) (k : Nat) (h1 : 1 ≤ k) (h5 : k ≤ 5) :
      tableAt (stepTable i s) (o + k) = tableAt (adcResetRows s) k := by
    rw [h s k h1 h5, adcResetSeq_eq_rows]
  exact ⟨completesAt_of_row (fun s => row s 1 (by decide) (by decide)) fun _ => rfl,
    writesSyncWhenAt_of_rows (fun s => row s 2 (by decide) (by decide)) (fun s => row s 3 (by decide) (by decide)),
    writesAt_of_row (fun s => row s 4 (by decide) (by decide)),
    waitsAt_of_row (fun s => row s 5 (by decide) (by decide)) fun _ => rfl⟩

/-- A command whose table holds `ADC_CONV_SEQ` after `o` micro-steps answers its rows there. -/
theorem conversionRowsAt_of_table {i : Instr} {o : Nat} {ch : BitVec 5} {ref : Bool}
    (h : ∀ s k, 1 ≤ k → k ≤ 20 → tableAt (stepTable i s) (o + k) = tableAt (adcConvSeq ch ref) k) :
    conversionRowsAt i o ch ref := by
  have writeSync {k : Nat} {w : FieldWrite} (h1 : 1 ≤ k) (h20 : k < 20)
      (hwrite : tableAt (adcConvSeq ch ref) k = some (.pwrite w))
      (hwait : tableAt (adcConvSeq ch ref) (k + 1) = some (.syncWait .adc)) : writesSyncAt i (o + k) .adc w :=
    writesSyncAt_of_rows (fun s => (h s k h1 h20.le).trans hwrite)
      (fun s => (h s (k + 1) (by omega) h20).trans hwait)
  exact ⟨writeSync (by decide) (by decide) rfl rfl, writeSync (by decide) (by decide) rfl rfl,
    writeSync (by decide) (by decide) rfl rfl, writeSync (by decide) (by decide) rfl rfl,
    writeSync (by decide) (by decide) rfl rfl, writeSync (by decide) (by decide) rfl rfl,
    writeSync (by decide) (by decide) rfl rfl,
    waitsAt_of_row (fun s => h s 15 (by decide) (by decide)) fun _ => rfl,
    completesAt_of_row (fun s => h s 16 (by decide) (by decide)) fun _ => rfl,
    writeSync (by decide) (by decide) rfl rfl, writeSync (by decide) (by decide) rfl rfl⟩

/-- Settles O18: the table of ADCRESET is `ADC_RESET_SEQ` and the row that ends the command. -/
theorem adcresetStepTable : Obligations.AdcresetStepTable := by
  refine ⟨resetRowsAt_of_table fun s k h1 h5 => ?_, completesAt_last .adcreset⟩
  rw [Nat.zero_add]
  exact tableAt_earlier .adcreset s k h1 (Nat.lt_succ_of_le h5)

/-- Settles O19: each of the four tables holds `ADC_CONV_SEQ` after the rows that stand before it. -/
theorem conversionStepTable : Obligations.ConversionStepTable :=
  ⟨fun c ref _ => conversionRowsAt_of_table fun s k => stepTable_conv (.adcread c ref) s 0 k rfl,
    conversionRowsAt_of_table fun s k => stepTable_conv .tempraw s 0 k rfl,
    conversionRowsAt_of_table fun s k => stepTable_conv .adcinit s 13 k rfl,
    conversionRowsAt_of_table fun s k => stepTable_conv .tempinit s 14 k rfl⟩

/-! ### TICKRUN and TICKTAKE -/

theorem setupRow_eq_guardedRow (s : State) (op : MicroOp) : setupRow s op = guardedRow (!s.tick.armed) op := by
  unfold setupRow guardedRow
  cases s.tick.armed <;> rfl

/-- Where ARMED is 1 already row s7 would change nothing. -/
theorem setArmed_of_armed {s : State} (h : s.tick.armed = true) : s.setArmed = s := by
  unfold State.setArmed
  rw [← h]

section
variable {k : Nat} {op : State → MicroOp}

theorem tableAt_tickrun (h : ∀ s, tableAt (tickrunRows s) k = some (op s)) (s : State) :
    tableAt (stepTable .tickrun s) k = some (op s) := by
  rw [stepTable_tickrun, h]

theorem tableAt_tickrun_setup (h : ∀ s, tableAt (tickrunRows s) k = some (setupRow s (op s))) (s : State) :
    tableAt (stepTable .tickrun s) k = some (guardedRow (!s.tick.armed) (op s)) := by
  rw [tableAt_tickrun h, setupRow_eq_guardedRow]

end

/-- Row s7 leaves ARMED = 1, taken or skipped (42_tick.md rules R187, R188). -/
theorem tickrun_arms : completesAt .tickrun 10 State.setArmed := by
  refine completesAt_of_row (tableAt_tickrun_setup (op := fun s => .compute s.setArmed) fun _ => rfl) fun s => ?_
  cases ha : s.tick.armed with
  | false => rfl
  | true => rw [setArmed_of_armed ha]; rfl

/-- Settles O38, row by row of TICKRUN's table. -/
theorem tickrunStepTable : Obligations.TickrunStepTable := by
  have writeWhen {k : Nat} {w : FieldWrite} (h : ∀ s, tableAt (tickrunRows s) k = some (setupRow s (.pwrite w))) :
      writesWhenAt .tickrun k (fun s => !s.tick.armed) w :=
    writesWhenAt_of_row (tableAt_tickrun_setup h)
  have writeSyncWhen {k : Nat} {w : FieldWrite} (h : ∀ s, tableAt (tickrunRows s) k = some (setupRow s (.pwrite w)))
      (h' : ∀ s, tableAt (tickrunRows s) (k + 1) = some (setupRow s (.syncWait .timer))) :
      writesSyncWhenAt .tickrun k (fun s => !s.tick.armed) .timer w :=
    writesSyncWhenAt_of_rows (tableAt_tickrun_setup h) (tableAt_tickrun_setup h')
  have write {k : Nat} {w : State → FieldWrite} (h : ∀ s, tableAt (tickrunRows s) k = some (.pwrite (w s))) :
      completesAt .tickrun k fun s => s.pwrite (w s) :=
    completesAt_of_row (tableAt_tickrun h) fun _ => rfl
  have wait {k : Nat} (h : ∀ s, tableAt (tickrunRows s) k = some (.syncWait .timer)) :
      waitsAt .tickrun k fun s => !s.timer.syncBusy :=
    waitsAt_of_row (tableAt_tickrun h) fun _ => rfl
  have period : completesAt .tickrun 13 fun s => s.applyPeriod s.seq.lArg :=
    completesAt_of_row (tableAt_tickrun (op := fun s => .compute (s.applyPeriod s.seq.lArg)) fun _ => rfl) fun _ => rfl
  refine ⟨writeWhen fun _ => rfl, writeSyncWhen (fun _ => rfl) fun _ => rfl, writeSyncWhen (fun _ => rfl) fun _ => rfl,
    writeSyncWhen (fun _ => rfl) fun _ => rfl, writeWhen fun _ => rfl, writeWhen fun _ => rfl, tickrun_arms,
    ⟨write fun _ => rfl, wait fun _ => rfl⟩, period, ⟨write fun _ => rfl, wait fun _ => rfl⟩,
    write (w := fun s => .timerPrescaler s.tick.divShift) fun _ => rfl, wait fun _ => rfl,
    write (w := fun s => .timerTop s.tick.top) fun _ => rfl, wait fun _ => rfl,
    ⟨write fun _ => rfl, wait fun _ => rfl⟩, fun s hs => ⟨_, completesAt_last .tickrun s hs, rfl, rfl, ?_, rfl⟩⟩
  show ({ s.regs with res0 := HostReg.holding (wordOfBool (!s.tick.started)) } : HostRegs) = _
  rw [wordOfBool_not]
  rfl

/-- Settles O40: TICKTAKE's one row is its last. -/
theorem ticktakeReadsAndClears : Obligations.TicktakeReadsAndClears := fun s hs =>
  ⟨_, completesAt_last .ticktake s hs, rfl, rfl, rfl, rfl⟩

end Sys2Proof.Machine


/-! The calibration memory, TEMPCONV's reads of it, the accesses the window refuses, and the environment's steps on the
ADC (20_memory.md rules R65 to R72, R76). -/

namespace Sys2Proof.Machine

open Sys2Proof.Safety Sys2Proof.Statements

/-! ### No step writes the calibration memory -/

@[simp] theorem State.handlerStep_mem (s : State) : s.handlerStep.mem = s.mem := by
  obtain ⟨_, _, _, _, _, h⟩ := s.handlerStep_eq
  rw [h]

@[simp] theorem State.envStep_mem (e : EnvStep) (s : State) : (s.envStep e).mem = s.mem := by
  obtain ⟨_, _, _, h⟩ := s.envStep_eq e
  rw [h]

@[simp] theorem finalState_mem (i : Instr) (s : State) : (finalState i s).mem = s.mem := by
  obtain ⟨_, _, _, _, _, _, h⟩ := finalState_eq i s
  rw [h]

theorem exec_mem {i : Instr} {s t : State} (h : exec i s = .next t) : t.mem = s.mem := by
  cases seqTurn_of_exec h with
  | last _ => exact finalState_mem i s
  | arm _ _ _ => rfl
  | period _ _ => rfl
  | plain _ _ hplain hrun =>
    obtain ⟨_, _, _, _, _, _, _, rfl⟩ := MicroOp.run_eq_of_plain hplain hrun
    rfl
  | held => rfl

theorem hostAccess_mem {a : HostAccess} {s t : State} (h : s.hostAccess a = .next t) : t.mem = s.mem := by
  rcases hostAccess_cases h with ⟨v, rfl⟩ | ⟨-, v, rfl⟩ | ⟨w, rfl⟩ | rfl | rfl
  · rfl
  · rfl
  · rcases offerCommand_cases w s with he | ⟨-, i, -, he⟩ <;> rw [he] <;> rfl
  · rfl
  · rfl

theorem takeTurn_mem {tn : Turn} {s t : State} (h : s.takeTurn tn = .next t) : t.mem = s.mem := by
  rcases takeTurn_cases h with ⟨-, -, rfl⟩ | ⟨-, -, -, hexec⟩ | ⟨a, -, -, -, hacc⟩ | ⟨-, rfl⟩ | ⟨-, -, rfl⟩
    | ⟨e, -, rfl⟩ | ⟨-, rfl⟩ | rfl
  · exact s.handlerStep_mem
  · exact exec_mem hexec
  · exact hostAccess_mem hacc
  · rfl
  · rfl
  · exact s.envStep_mem e
  · rfl
  · rfl

theorem step_mem {s t : State} (h : step s = .next t) : t.mem = s.mem := by
  obtain ⟨tn, ts, hturn, -⟩ := step_cases h
  exact (takeTurn_mem hturn).trans (s.setSched_mem ts)

/-- Settles O56: no turn of any agent reaches the memory. -/
theorem calibrationWordsNeverChange : Obligations.CalibrationWordsNeverChange := by
  intro s t hstep
  rw [sameMemory, step_mem hstep]
  exact ⟨fun _ => rfl, id⟩

/-! ### TEMPCONV -/

/-- What MemRead returns, on every memory (20_memory.md rules R65, R67). -/
theorem memRead_returnsTheBytes (m : List Host.Cell) : memReadReturnsTheBytes m := by
  refine ⟨fun a b0 b1 b2 b3 h0 h1 h2 h3 => ?_, fun k hk => ?_, fun hwf => readByte_listed hwf,
    fun a hlo hhi hnot => ?_, readByte_outside m⟩
  · rw [memRead, byteAt_of_readByte h0, byteAt_of_readByte h1, byteAt_of_readByte h2, byteAt_of_readByte h3]
    rfl
  · exact ⟨_, readByte_inside m _ (Nat.le_add_right _ k) (Nat.add_lt_add_left hk _)⟩
  · rw [readByte_inside m a hlo hhi, byteAt_unlisted m a hnot]

theorem rawOperand_eq_extract (arg : Word) : rawOperand arg = arg.extractLsb' 0 16 :=
  BitVec.setWidth_eq_extractLsb' (by decide)

theorem convertStep_of_ne {s : State} (h : (unpack s.seq.t0 s.seq.t1).hotCode ≠ (unpack s.seq.t0 s.seq.t1).roomCode) :
    convertStep s
      = (s.setRes0 (BitVec.ofInt 32 (interp (unpack s.seq.t0 s.seq.t1) (rawOperand s.seq.lArg)))).finish :=
  if_neg h

theorem convertStep_of_eq {s : State} (h : (unpack s.seq.t0 s.seq.t1).hotCode = (unpack s.seq.t0 s.seq.t1).roomCode) :
    convertStep s = s.raiseCalErr :=
  if_pos h

theorem advance_of_step {s : State} {k : Nat} (h : s.seq.step = k) :
    s.advance = { s with seq := { s.seq with step := k + 1 } } := by
  rw [State.advance, h]

/-- Row v1 of TEMPCONV (41_temp.md rule R157). -/
theorem tempconv_reads_calw0 : completesAt .tempconv 1 fun s => s.setT0 (memRead s.mem Config.calAddr) :=
  completesAt_of_row (op := fun _ => .loadCalw0) (fun _ => rfl) fun _ => rfl

/-- Row v2 of TEMPCONV. -/
theorem tempconv_reads_calw1 : completesAt .tempconv 2 fun s => s.setT1 (memRead s.mem (Config.calAddr + 4)) :=
  completesAt_of_row (op := fun _ => .loadCalw1) (fun _ => rfl) fun _ => rfl

/-- Row v3 of TEMPCONV. -/
theorem tempconv_converts : completesAt .tempconv 3 convertStep := completesAt_last .tempconv

/-- Settles O28: the bytes by the laws of the memory, v1 and v2 by their rows, v3 by the two cases of the conversion. -/
theorem tempconvStepTable : Obligations.TempconvStepTable := by
  intro s
  refine ⟨memRead_returnsTheBytes s.mem, fun hs => ?_, fun hs => ?_, fun hs hne => ?_, fun hs heq => ?_⟩
  · exact (tempconv_reads_calw0 s hs).trans (congrArg _ (advance_of_step hs))
  · exact (tempconv_reads_calw1 s hs).trans (congrArg _ (advance_of_step hs))
  · rw [tempconv_converts s hs, convertStep_of_ne hne, rawOperand_eq_extract]
    exact congrArg _ (advance_of_step hs)
  · refine ⟨s.raiseCalErr.advance, ?_, rfl, rfl, rfl, rfl, rfl, rfl, rfl, rfl, rfl, rfl, rfl, rfl, rfl, rfl⟩
    rw [tempconv_converts s hs, convertStep_of_eq heq]

/-! ### The accesses the window refuses -/

theorem hostAccess_of_not_admitted {addr size : Nat} (h : admitted addr size = false) (s : State) (v : Word) :
    s.hostAccess (.read addr size) = .refused .accessNotAdmitted
      ∧ s.hostAccess (.write addr size v) = .refused .accessNotAdmitted := by
  simp [State.hostAccess, State.hostRead, State.hostWrite, h]

/-- While BUSY = 1 an admitted read is refused but for STATUS (20_memory.md rule R76). -/
theorem hostRead_of_busy {addr size : Nat} {s : State} (hadm : admitted addr size = true) (hb : s.seq.busy = true)
    (hne : addr ≠ Config.retickBase + offStatus) : s.hostRead addr size = .refused .accessWhileBusy := by
  simp [State.hostRead, hadm, hb, hne]

/-- While BUSY = 1 an admitted write is refused but for CMD (20_memory.md rule R76). -/
theorem hostWrite_of_busy {addr size : Nat} {s : State} (hadm : admitted addr size = true) (hb : s.seq.busy = true)
    (hne : addr ≠ Config.retickBase) (v : Word) : s.hostWrite addr size v = .refused .accessWhileBusy := by
  simp [State.hostWrite, hadm, hb, hne, offCmd]

/-- Settles O10: the accesses outside the window's own, then the admitted ones while busy. -/
theorem windowRefusesOddAndBusyAccesses : Obligations.WindowRefusesOddAndBusyAccesses := by
  intro s addr size v
  constructor
  · exact fun hodd => hostAccess_of_not_admitted ((admitted_eq_false_iff addr size).2 hodd) s v
  · intro hsize halign hlo hhi hb
    have hadm : admitted addr size = true := by
      rw [← Bool.not_eq_false, admitted_eq_false_iff]
      omega
    refine ⟨hostRead_of_busy hadm hb, fun hne => hostWrite_of_busy hadm hb hne v, ?_⟩
    rintro rfl
    subst hsize
    have hdrop : s.offerCommand v = s.raiseCmdErr := by simp [State.offerCommand, hb]
    exact (hostWrite_cmd s v).trans (congrArg _ hdrop)

/-! ### The environment's steps on the ADC -/

theorem envStep_adcReset_of_armed {s : State} (h : s.adc.swrst = true) (d : AdcResetDraw) :
    s.envStep (.adcReset d) = { s with adc := Adc.resetWith d } := if_pos h

theorem envStep_adcReset_of_not_armed {s : State} (h : s.adc.swrst = false) (d : AdcResetDraw) :
    s.envStep (.adcReset d) = s := if_neg (by simp [h])

/-- Settles O14: ENV-SYNC by the peripheral, ENV-ADCRESET by SWRST. -/
theorem environmentSyncAndPeripheralReset : Obligations.EnvironmentSyncAndPeripheralReset := by
  intro s p d
  refine ⟨⟨?_, ?_, ?_⟩, fun h => envStep_adcReset_of_not_armed h d, fun h => ?_⟩
  · cases p <;> rfl
  · rintro rfl
    rfl
  · rintro rfl
    rfl
  · exact ⟨_, envStep_adcReset_of_armed h d, rfl, rfl, rfl, rfl, rfl, rfl, rfl, rfl, rfl, rfl, rfl, rfl, rfl, rfl⟩

/-- Settles O15: the condition of ENV-CONV is CONVERTING and ENABLE. -/
theorem conversionsCompleteWithAnySample : Obligations.ConversionsCompleteWithAnySample := by
  refine fun s v => ⟨fun hconv hon => if_pos (by simp [hconv, hon]), fun hor => if_neg ?_⟩
  rcases hor with h | h <;> simp [h]

end Sys2Proof.Machine


/-! A whole ADCRESET: how the rows of any command are run under a schedule that releases each wait, `ADC_RESET_SEQ` so, and
the run from the host's call (40_adc.md rules R122, R124, R125). -/

namespace Sys2Proof.Machine

open Sys2Proof.Safety Sys2Proof.Statements

/-! ### A command in progress under a schedule -/

/-- The command `i` is in progress and no handler run is active. -/
structure InCommand (i : Instr) (s : State) : Prop where
  noHandler : s.irq.active = false
  busy : s.seq.busy = true
  current : s.current = i

theorem InCommand.blockTurn_eq {i : Instr} {s : State} (h : InCommand i s) : s.blockTurn = exec i s := by
  simp [State.blockTurn, h.noHandler, h.busy, h.current]

/-- `s` with other fields of the model's own. -/
def State.withWorld (w : World) (s : State) : State := { s with world := w }

/-- `s` at STEP `k`, with `t0` in T0 and the ADC's fields `a`. -/
def State.atRow (s : State) (k : Nat) (t0 : Word) (a : Adc) : State :=
  { s with adc := a, seq := { s.seq with step := k, t0 := t0 } }

theorem InCommand.withWorld {i : Instr} {s : State} (h : InCommand i s) (w : World) : InCommand i (s.withWorld w) :=
  ⟨h.noHandler, h.busy, h.current⟩

theorem InCommand.atRow {i : Instr} {s : State} (h : InCommand i s) (k : Nat) (t0 : Word) (a : Adc) :
    InCommand i (s.atRow k t0 a) := ⟨h.noHandler, h.busy, h.current⟩

/-- In `n` steps the turns `ts` are used up to `ts'` and the state goes from `s` to `t`, whatever stands in the rest of the
model's own fields before. -/
def Reaches (n : Nat) (ts : List Turn) (s : State) (ts' : List Turn) (t : State) : Prop :=
  ∀ w : World, w.sched = ts → ∃ w' : World, w'.sched = ts' ∧ Runs n (s.withWorld w) (t.withWorld w')

theorem Reaches.trans {n n' : Nat} {ts ts' ts'' : List Turn} {s t u : State} (h : Reaches n ts s ts' t)
    (h' : Reaches n' ts' t ts'' u) : Reaches (n + n') ts s ts'' u := by
  intro w hw
  obtain ⟨w', hw', hr⟩ := h w hw
  obtain ⟨w'', hw'', hr'⟩ := h' w' hw'
  exact ⟨w'', hw'', hr.trans hr'⟩

/-- A step of the environment between two rows. -/
theorem reaches_env {e : EnvStep} {s t : State} {ts : List Turn}
    (he : ∀ w, (s.withWorld w).envStep e = t.withWorld w) : Reaches 1 (.env e :: ts) s ts t :=
  fun w hw => ⟨{ w with sched := ts }, rfl, runs_of_turn hw (congrArg _ (he _))⟩

/-- A turn of SEQ, whatever it leaves in the model's own fields. -/
theorem InCommand.runs_row {i : Instr} {s t : State} {w : World} {ts : List Turn} (h : InCommand i s)
    (hw : w.sched = .block :: ts) (hexec : exec i (s.withWorld { w with sched := ts }) = .next t) :
    Runs 1 (s.withWorld w) t :=
  runs_of_turn hw ((h.withWorld { w with sched := ts }).blockTurn_eq.trans hexec)

/-- A turn of SEQ that leaves the model's own fields alone. -/
theorem InCommand.reaches_row {i : Instr} {s t : State} {ts : List Turn} (h : InCommand i s)
    (hexec : ∀ w, exec i (s.withWorld w) = .next (t.withWorld w)) : Reaches 1 (.block :: ts) s ts t :=
  fun _ hw => ⟨_, rfl, h.runs_row hw (hexec _)⟩

/-! ### ADC_RESET_SEQ under a schedule -/

section
variable {i : Instr} {s : State} {k : Nat} {t0 : Word} {a : Adc} {ts : List Turn} (h : InCommand i s)
include h

/-- A wait that is enabled. -/
theorem InCommand.reaches_wait {c : State → Bool} (hrow : waitsAt i k c)
    (hc : ∀ w, c ((s.atRow k t0 a).withWorld w) = true) :
    Reaches 1 (.block :: ts) (s.atRow k t0 a) ts (s.atRow (k + 1) t0 a) :=
  (h.atRow k t0 a).reaches_row fun w =>
    (hrow _ rfl).trans (congrArg Host.Outcome.next (if_pos (hc w)))

/-- A write to an ADC field and the environment's step `e` after it, which leaves the ADC with the fields `a'` whichever
way the busy bit was drawn. -/
theorem InCommand.reaches_write_env {wr : FieldWrite} {e : EnvStep} {a' : Adc} (hwr : wr.periph = some .adc)
    (hrow : ∀ w, exec i ((s.atRow k t0 a).withWorld w) = .next (((s.atRow k t0 a).withWorld w).pwrite wr).advance)
    (he : ∀ b w, ((s.atRow (k + 1) t0 { a.store wr with syncBusy := b }).withWorld w).envStep e
      = (s.atRow (k + 1) t0 a').withWorld w) :
    Reaches 2 (.block :: .env e :: ts) (s.atRow k t0 a) ts (s.atRow (k + 1) t0 a') := by
  intro w hw
  have hwrite := (h.atRow k t0 a).runs_row hw (hrow _)
  rw [pwrite_adc wr _ hwr] at hwrite
  obtain ⟨w', hw', henv⟩ := reaches_env (ts := ts) (he (Config.syncDraw w.draws))
    { w with sched := .env e :: ts, draws := w.draws + 1 } rfl
  exact ⟨w', hw', hwrite.trans henv⟩

/-- Row r2, taken or skipped, where the busy bit falls before its wait (40_adc.md rule R122). -/
theorem InCommand.reaches_disable
    (hrow : writesSyncWhenAt i k (fun s => s.seq.t0 == 1) .adc (.adcEnable false)) :
    ∃ a', Reaches 3 (pairs .adc 1 ++ ts) (s.atRow k t0 a) ts (s.atRow (k + 2) t0 a') := by
  obtain ⟨hwrite, hwait⟩ := hrow
  have hcleared : ∃ a' : Adc, a'.syncBusy = false ∧ Reaches 2 (.block :: .env (.syncClear .adc) :: .block :: ts)
      (s.atRow k t0 a) (.block :: ts) (s.atRow (k + 1) t0 a') := by
    have row (w : World) := hwrite ((s.atRow k t0 a).withWorld w) rfl
    cases hg : t0 == 1 with
    | true =>
      refine ⟨{ a.store (.adcEnable false) with syncBusy := false }, rfl,
        h.reaches_write_env (wr := .adcEnable false) rfl (fun w => ?_) fun _ _ => rfl⟩
      exact (row w).trans (congrArg (fun u : State => Host.Outcome.next u.advance) (if_pos hg))
    | false =>
      have skip : Reaches 1 (.block :: .env (.syncClear .adc) :: .block :: ts) (s.atRow k t0 a)
          (.env (.syncClear .adc) :: .block :: ts) (s.atRow (k + 1) t0 a) :=
        (h.atRow k t0 a).reaches_row fun w =>
          (row w).trans (congrArg (fun u : State => Host.Outcome.next u.advance) (if_neg (Bool.eq_false_iff.1 hg)))
      exact ⟨{ a with syncBusy := false }, rfl, skip.trans (reaches_env fun _ => rfl)⟩
  obtain ⟨a', ha, hreach⟩ := hcleared
  refine ⟨a', hreach.trans (h.reaches_wait hwait fun w => ?_)⟩
  have hclear : ((s.atRow (k + 1) t0 a').withWorld w).syncBusy .adc = false := ha
  simp [hclear]

/-- Rows r3 and r4, where the environment completes the armed reset with the draw `d` (40_adc.md rule R122). -/
theorem InCommand.reaches_armed_reset (d : AdcResetDraw) (harm : writesAt i k .adcSwrst)
    (hpoll : waitsAt i (k + 1) fun s => !s.adc.swrst && !s.adc.syncBusy) :
    Reaches 4 (.block :: .env (.adcReset d) :: .env (.syncClear .adc) :: .block :: ts) (s.atRow k t0 a) ts
      (s.atRow (k + 2) t0 (adcAfterReset d)) := by
  have armed : Reaches 2 (.block :: .env (.adcReset d) :: .env (.syncClear .adc) :: .block :: ts) (s.atRow k t0 a)
      (.env (.syncClear .adc) :: .block :: ts) (s.atRow (k + 1) t0 (Adc.resetWith d)) :=
    h.reaches_write_env rfl (fun w => harm _ rfl) fun _ _ => rfl
  have cleared : Reaches 1 (.env (.syncClear .adc) :: .block :: ts) (s.atRow (k + 1) t0 (Adc.resetWith d))
      (.block :: ts) (s.atRow (k + 1) t0 (adcAfterReset d)) := reaches_env fun _ => rfl
  exact (armed.trans cleared).trans (h.reaches_wait hpoll fun _ => rfl)

/-- `ADC_RESET_SEQ` where the environment completes the peripheral reset with the draw `d`: the ADC holds the draw's
fields, and ENABLE as r1 read it stands in T0 (40_adc.md rules R122, R124). -/
theorem InCommand.reaches_reset {o : Nat} (d : AdcResetDraw) (hrows : resetRowsAt i o) :
    Reaches 8 (resetTurns d ++ ts) (s.atRow (o + 1) t0 a) ts
      (s.atRow (o + 6) (if a.enable then 1 else 0) (adcAfterReset d)) := by
  obtain ⟨hread, hdisable, harm, hpoll⟩ := hrows
  have read : Reaches 1 (resetTurns d ++ ts) (s.atRow (o + 1) t0 a) _
      (s.atRow (o + 2) (if a.enable then 1 else 0) a) :=
    (h.atRow (o + 1) t0 a).reaches_row fun w => hread _ rfl
  obtain ⟨a', disable⟩ := h.reaches_disable hdisable
  exact (read.trans disable).trans (h.reaches_armed_reset d harm hpoll)

end

/-! ### The call -/

/-- An idle block accepts the host's call of a legal command word (30_encoding.md rule R97). -/
theorem runs_call {w : Word} {i : Instr} {s : State} {ts : List Turn} (hidle : idle s)
    (hs : s.world.sched = call w :: ts) (hw : decodeWord w = .ok i) : Runs 1 s ((s.setSched ts).accept i) := by
  obtain ⟨hcan, hb⟩ := hidle
  have hturn : (s.setSched ts).hostTurn (.write Config.retickBase 4 w)
      = (s.setSched ts).hostAccess (.write Config.retickBase 4 w) := if_pos hcan
  refine runs_of_turn hs (hturn.trans ?_)
  rw [State.hostAccess, hostWrite_cmd, offerCommand_accept (s := s.setSched ts) hb hw]

/-- After the acceptance of a call the command is in progress. -/
theorem inCommand_accept {i : Instr} {s : State} (hi : i.wellFormed = true) (hidle : idle s) (ts : List Turn) :
    InCommand i ((s.setSched ts).accept i) := by
  obtain ⟨hcan, -⟩ := hidle
  simp only [State.hostCanStep, Bool.and_eq_true, Bool.not_eq_true'] at hcan
  obtain ⟨hactive, -⟩ := hcan
  exact ⟨hactive, rfl, current_accept i hi _⟩

/-- Settles O23: the host's call, `ADC_RESET_SEQ` in the eight turns that release its waits, and the row that ends the
command. -/
theorem adcresetCallCompletes : Obligations.AdcresetCallCompletes := by
  intro s d rest hidle hsched
  have hcall := runs_call (i := .adcreset) (ts := resetTurns d ++ (.block :: rest)) hidle hsched rfl
  have hcommand := inCommand_accept (i := .adcreset) rfl hidle (resetTurns d ++ (.block :: rest))
  obtain ⟨hrows, hdone⟩ := adcresetStepTable
  have reset := hcommand.reaches_reset (t0 := s.seq.t0) (a := s.adc) (ts := .block :: rest) d hrows
  obtain ⟨w, hw, hruns⟩ := reset { s.world with sched := resetTurns d ++ (.block :: rest) } rfl
  have done := (hcommand.atRow 6 (if s.adc.enable then 1 else 0) (adcAfterReset d)).runs_row hw (hdone _ rfl)
  exact ⟨_, (hcall.trans (hruns.trans done)).run_eq, rfl, rfl, rfl, rfl, rfl, rfl, rfl, rfl, rfl, rfl, rfl, rfl, rfl,
    rfl, rfl, rfl⟩

end Sys2Proof.Machine


/-! Command words: the row of the opcode map a word selects, the fields of ADCREAD's word, that decoding and encoding are
each other's inverse, and the acceptance of a word (30_encoding.md rules R91 to R97, R101). -/

namespace Sys2Proof.Machine

open Sys2Proof.Statements

/-! ### The row a word selects -/

/-- Two rows that one word selects have the same value under both masks. -/
theorem value_and_mask_of_selects_both {w : Word} {a b : OpcodeRow} (ha : w &&& a.mask = a.value)
    (hb : w &&& b.mask = b.value) : a.value &&& b.mask = b.value &&& a.mask := by
  rw [← ha, ← hb, BitVec.and_assoc, BitVec.and_assoc, BitVec.and_comm a.mask]

/-- No word selects two rows of the opcode map (30_encoding.md rule R95): any two of them differ under both masks. -/
theorem opcodeRows_disjoint :
    opcodeRows.Pairwise fun a b => ∀ w : Word, ¬ (w &&& a.mask = a.value ∧ w &&& b.mask = b.value) := by
  have hdiffer : opcodeRows.Pairwise fun a b => a.value &&& b.mask ≠ b.value &&& a.mask := by decide
  exact hdiffer.imp fun hne w ⟨ha, hb⟩ => hne (value_and_mask_of_selects_both ha hb)

/-- Where no two elements of a list satisfy `p`, the one that does is found. -/
theorem find?_eq_some_of_pairwise {α : Type} {p : α → Bool} {l : List α} {a : α}
    (hl : l.Pairwise fun a b => ¬ (p a = true ∧ p b = true)) (ha : a ∈ l) (hp : p a = true) : l.find? p = some a := by
  induction hl with
  | nil => cases ha
  | @cons b l hb _ ih =>
    rcases List.mem_cons.1 ha with rfl | hmem
    · exact List.find?_cons_of_pos hp
    · rw [List.find?_cons_of_neg fun hpb => hb a hmem ⟨hpb, hp⟩, ih hmem]

/-- A word decodes to what the row it selects builds from it (30_encoding.md rule R95). -/
theorem decodeWord_eq_ok_iff_row (w : Word) (i : Instr) :
    decodeWord w = .ok i ↔ ∃ r ∈ opcodeRows, w &&& r.mask = r.value ∧ i = r.build w := by
  constructor
  · intro h
    unfold decodeWord at h
    split at h
    next r hr =>
      cases h
      exact ⟨r, List.mem_of_find?_eq_some hr, by simpa using List.find?_some hr, rfl⟩
    next => cases h
  · rintro ⟨r, hr, hsel, rfl⟩
    have hfind : opcodeRows.find? (fun r => w &&& r.mask == r.value) = some r :=
      find?_eq_some_of_pairwise (opcodeRows_disjoint.imp fun h => by simpa using h w) hr (by simpa using hsel)
    simp only [decodeWord, hfind]

/-- The mask of a command without operand bits leaves the whole word. -/
theorem and_fullMask (w : Word) : w &&& 0xFFFFFFFF = w := BitVec.and_allOnes

/-- Match and mask of the nine rows (30_encoding.md rules R93, R95). -/
theorem decodeWord_eq_ok_iff (w : Word) (i : Instr) : decodeWord w = .ok i ↔
    (w = 0x10 ∧ i = .adcreset) ∨ (w = 0x11 ∧ i = .adcinit)
      ∨ (w &&& 0xFFFEE0FF = 0x12 ∧ i = .adcread (channelField w).toNat (refField w))
      ∨ (w = 0x20 ∧ i = .tempinit) ∨ (w = 0x21 ∧ i = .tempraw) ∨ (w = 0x22 ∧ i = .tempconv)
      ∨ (w = 0x30 ∧ i = .tickcomp) ∨ (w = 0x31 ∧ i = .tickrun) ∨ (w = 0x32 ∧ i = .ticktake) := by
  simp only [decodeWord_eq_ok_iff_row, opcodeRows, List.mem_cons, List.not_mem_nil, or_false, exists_eq_or_imp,
    exists_eq_left, and_fullMask]

/-- Settles O3, by the rows' selection and their disjointness. -/
theorem wordsSelectTheirRowsAlone : Obligations.WordsSelectTheirRowsAlone :=
  ⟨decodeWord_eq_ok_iff, opcodeRows_disjoint⟩

/-! ### The fields of ADCREAD's word -/

/-- `channel` in its place, bits 12:8 (30_encoding.md rule R91). -/
def channelBits (c : BitVec 5) : Word := c.setWidth 32 <<< 8

/-- `ref` in its place, bit 16 (30_encoding.md rule R91). -/
def refBit (r : Bool) : Word := if r then 0x10000 else 0

/-- ADCREAD's word is its opcode and its two fields. -/
theorem encode_adcread (c : BitVec 5) (r : Bool) :
    encode (.adcread c.toNat r) = 0x12 ||| channelBits c ||| refBit r := by
  simp [encode, channelBits, refBit]

theorem channelBits_getLsbD (c : BitVec 5) {k : Nat} (hk : k < 32) :
    (channelBits c).getLsbD k = (decide (8 ≤ k) && c.getLsbD (k - 8)) := by
  simp [channelBits, hk, ← decide_not]

/-- The bits of the channel's mask. -/
theorem channelMask_getLsbD {k : Nat} (hk : k < 32) :
    (0x1F00 : Word).getLsbD k = (decide (8 ≤ k) && decide (k - 8 < 5)) := by
  decide +revert

/-- The channel field put back is the word under the field's mask. -/
theorem channelBits_channelField (w : Word) : channelBits (channelField w) = w &&& 0x1F00 := by
  apply BitVec.eq_of_getLsbD_eq
  intro k hk
  rw [BitVec.getLsbD_and, channelMask_getLsbD hk, channelBits_getLsbD _ hk, channelField, BitVec.getLsbD_extractLsb']
  by_cases h8 : 8 ≤ k
  · simp [h8, Bool.and_comm]
  · simp [h8]

theorem channelField_channelBits (c : BitVec 5) : channelField (channelBits c) = c := by
  apply BitVec.eq_of_getLsbD_eq
  intro k hk
  have hk' : 8 + k < 32 := by omega
  simp [channelField, channelBits_getLsbD c hk', hk]

theorem channelBits_and_channelMask (c : BitVec 5) : channelBits c &&& 0x1F00 = channelBits c := by
  rw [← channelBits_channelField, channelField_channelBits]

theorem refBit_refField (w : Word) : refBit (refField w) = w &&& 0x10000 :=
  (BitVec.and_twoPow w 16).symm

/-- A word with ADCREAD's match is its opcode and its two fields: the mask and the fields' masks make up the whole word. -/
theorem encode_adcread_of_match {w : Word} (hw : w &&& 0xFFFEE0FF = 0x12) :
    encode (.adcread (channelField w).toNat (refField w)) = w :=
  calc encode (.adcread (channelField w).toNat (refField w))
      = w &&& 0xFFFEE0FF ||| w &&& 0x1F00 ||| w &&& 0x10000 := by
        rw [encode_adcread, channelBits_channelField, refBit_refField, hw]
    _ = w &&& 0xFFFFFFFF := by
        rw [← BitVec.and_or_distrib_left, ← BitVec.and_or_distrib_left]
        rfl
    _ = w := and_fullMask w

/-- ADCREAD's word has its match under its mask (30_encoding.md rule R95). -/
theorem encode_adcread_match (c : BitVec 5) (r : Bool) : encode (.adcread c.toNat r) &&& 0xFFFEE0FF = 0x12 := by
  have hchannel : channelBits c &&& 0xFFFEE0FF = 0 := by
    rw [← channelBits_and_channelMask, BitVec.and_assoc]
    exact BitVec.and_zero
  have href : refBit r &&& 0xFFFEE0FF = 0 := by cases r <;> rfl
  rw [encode_adcread, BitVec.and_or_distrib_right, BitVec.and_or_distrib_right, hchannel, href]
  rfl

theorem channelField_or (v w : Word) : channelField (v ||| w) = channelField v ||| channelField w :=
  BitVec.extractLsb'_or

theorem channelField_encode_adcread (c : BitVec 5) (r : Bool) : channelField (encode (.adcread c.toNat r)) = c := by
  have hop : channelField 0x12 = 0 := rfl
  have href : channelField (refBit r) = 0 := by cases r <;> rfl
  rw [encode_adcread, channelField_or, channelField_or, channelField_channelBits, hop, href]
  simp

theorem refField_encode_adcread (c : BitVec 5) (r : Bool) : refField (encode (.adcread c.toNat r)) = r := by
  have hop : (0x12 : Word).getLsbD 16 = false := rfl
  have hchannel : (channelBits c).getLsbD 16 = false :=
    (channelBits_getLsbD c (by decide)).trans (BitVec.getLsbD_of_ge c 8 (by decide))
  have href : (refBit r).getLsbD 16 = r := by cases r <;> rfl
  rw [encode_adcread, refField, BitVec.getLsbD_or, BitVec.getLsbD_or, hop, hchannel, href]
  rfl

/-! ### Decoding and encoding -/

/-- Settles O2, from the rows' selection; the one row with operand bits by `encode_adcread_of_match`. -/
theorem encodeOfDecodeIsTheWord : Obligations.EncodeOfDecodeIsTheWord := by
  intro w i h
  rcases (decodeWord_eq_ok_iff w i).1 h with ⟨rfl, rfl⟩ | ⟨rfl, rfl⟩ | ⟨hw, rfl⟩ | ⟨rfl, rfl⟩ | ⟨rfl, rfl⟩
    | ⟨rfl, rfl⟩ | ⟨rfl, rfl⟩ | ⟨rfl, rfl⟩ | ⟨rfl, rfl⟩
  case inr.inr.inl => exact ⟨decide_eq_true (channelField w).isLt, encode_adcread_of_match hw⟩
  all_goals exact ⟨rfl, rfl⟩

theorem decodeWord_encode_adcread (c : BitVec 5) (r : Bool) :
    decodeWord (encode (.adcread c.toNat r)) = .ok (.adcread c.toNat r) := by
  refine (decodeWord_eq_ok_iff _ _).2 (.inr (.inr (.inl ⟨encode_adcread_match c r, ?_⟩)))
  rw [channelField_encode_adcread, refField_encode_adcread]

/-- Decoding the word of a well-formed command gives it back (30_encoding.md rules R91 to R93). -/
theorem decodeWord_encode (i : Instr) (hi : i.wellFormed = true) : decodeWord (encode i) = .ok i := by
  cases i with
  | adcread channel ref =>
    have hchannel : (BitVec.ofNat 5 channel).toNat = channel := Nat.mod_eq_of_lt (of_decide_eq_true hi)
    rw [← hchannel]
    exact decodeWord_encode_adcread _ ref
  | _ => rfl

/-- The four bytes of a word make the word again (20_memory.md rule R67). -/
theorem wordOfBytes_bytes (w : Word) :
    wordOfBytes (w.extractLsb' 0 8) (w.extractLsb' 8 8) (w.extractLsb' 16 8) (w.extractLsb' 24 8) = w := by
  unfold wordOfBytes
  rw [BitVec.extractLsb'_append_extractLsb'_eq_extractLsb', BitVec.extractLsb'_append_extractLsb'_eq_extractLsb',
    BitVec.extractLsb'_append_extractLsb'_eq_extractLsb']
  · exact BitVec.extractLsb'_eq_self
  all_goals rfl

/-- The bytes of a word decode as the word, with none left: every command has four bytes (30_encoding.md rule R90). -/
theorem decodeBytes_bytesOfWord (w : Word) : decodeBytes (bytesOfWord w) = (decodeWord w).map fun i => (i, []) := by
  simp only [bytesOfWord, decodeBytes, wordOfBytes_bytes]
  cases decodeWord w <;> rfl

/-- A table word decodes to what its word decodes to. -/
theorem decodeTableWord_eq_some_iff (nbits w : Nat) (i : Instr) :
    decodeTableWord nbits w = some i ↔ decodeWord (tableWord nbits w) = .ok i := by
  rw [decodeTableWord, decodeBytes_bytesOfWord]
  cases decodeWord (tableWord nbits w) <;> simp [Except.map]

/-- A word is its own table word. -/
theorem tableWord_toNat (w : Word) : tableWord 32 w.toNat = w := by
  rw [tableWord, Nat.mod_eq_of_lt w.isLt, BitVec.ofNat_toNat, BitVec.setWidth_eq]

/-- Settles O1: a table word is decoded as the word it is, and the word of a command as the command. -/
theorem decodeOfEncodeIsTheCommand : Obligations.DecodeOfEncodeIsTheCommand := by
  intro i hi
  rw [decodeTableWord_eq_some_iff, tableWord_toNat, decodeWord_encode i hi]

/-! ### Acceptance -/

/-- A command that decodes is well-formed. -/
theorem wellFormed_of_decodeWord {w : Word} {i : Instr} (h : decodeWord w = .ok i) : i.wellFormed = true :=
  (encodeOfDecodeIsTheWord w i h).1

/-- A word offered to a busy block is dropped (30_encoding.md rule R97). -/
theorem offerCommand_busy (w : Word) {s : State} (hb : s.seq.busy = true) : s.offerCommand w = s.raiseCmdErr :=
  if_pos hb

/-- An illegal word is dropped (30_encoding.md rule R97). -/
theorem offerCommand_illegal {w : Word} (s : State) (hw : ∀ i, decodeWord w ≠ .ok i) :
    s.offerCommand w = s.raiseCmdErr := by
  rcases offerCommand_cases w s with h | ⟨-, i, hi, -⟩
  · exact h
  · exact absurd hi (hw i)

/-- The host's call of a word offers it to the block in the same step. -/
theorem step_call {s : State} {w : Word} {rest : List Turn} (hs : s.world.sched = call w :: rest)
    (hcan : s.hostCanStep = true) : step s = .next ((s.setSched rest).offerCommand w) := by
  have hturn : (s.setSched rest).takeTurn (call w) = (s.setSched rest).hostAccess (.write Config.retickBase 4 w) :=
    if_pos hcan
  rw [step_cons s _ _ hs, hturn, State.hostAccess, hostWrite_cmd]

/-- L_ARG after an acceptance (30_encoding.md rule R94). -/
theorem latchOperands_lArg (i : Instr) (arg : Word) (q : Sequencer) :
    (latchOperands i arg q).lArg = if takesArg0 i then arg else q.lArg := by
  cases i <;> rfl

/-- T0 and T1 are kept at an acceptance (log entry 23). -/
theorem latchOperands_temporaries (i : Instr) (arg : Word) (q : Sequencer) :
    (latchOperands i arg q).t0 = q.t0 ∧ (latchOperands i arg q).t1 = q.t1 := by
  cases i <;> exact ⟨rfl, rfl⟩

/-- L_CH and L_REF after the acceptance of a word: its fields where it is an ADCREAD (30_encoding.md rule R94). -/
theorem latchOperands_fields {w : Word} {i : Instr} (hw : decodeWord w = .ok i) (arg : Word) (q : Sequencer) :
    (latchOperands i arg q).lCh = (if opcodeOf i = .adcread then channelField w else q.lCh)
      ∧ (latchOperands i arg q).lRef = (if opcodeOf i = .adcread then refField w else q.lRef) := by
  cases i with
  | adcread channel ref =>
    obtain ⟨-, hi⟩ : w &&& 0xFFFEE0FF = 0x12
        ∧ Instr.adcread channel ref = .adcread (channelField w).toNat (refField w) := by
      simpa using (decodeWord_eq_ok_iff w _).1 hw
    cases hi
    simp [latchOperands, opcodeOf]
  | _ => exact ⟨rfl, rfl⟩

/-- Settles O5: the call offers the word, and the three cases of the offer. -/
theorem commandWordsAreAcceptedOrDropped : Obligations.CommandWordsAreAcceptedOrDropped := by
  intro s w rest hs hcan
  have hstep := step_call hs hcan
  refine ⟨fun hb => ?_, fun _ hw => ?_, fun i hb hw => ?_⟩
  · rw [hstep, offerCommand_busy w (s := s.setSched rest) hb]
    rfl
  · rw [hstep, offerCommand_illegal _ hw]
    rfl
  · rw [offerCommand_accept (s := s.setSched rest) hb hw] at hstep
    obtain ⟨hch, href⟩ := latchOperands_fields hw s.regs.arg0.value s.seq
    obtain ⟨ht0, ht1⟩ := latchOperands_temporaries i s.regs.arg0.value s.seq
    exact ⟨_, hstep, rfl, rfl, rfl, latchOperands_lArg i _ _, hch, href, ht0, ht1, rfl⟩

/-- Settles O4: the words by evaluation, the call of TICKRUN by the window's writes of ARG0 and CMD. -/
theorem workedEncodings : Obligations.WorkedEncodings := by
  refine ⟨rfl, rfl, rfl, rfl, rfl, rfl, fun s hb => ?_, rfl, rfl, rfl⟩
  have harg : s.hostAccess (.write (Config.retickBase + 0x04) 4 0x3E8) = .next (s.setArg0 0x3E8) :=
    hostWrite_base_add s 0x3E8 offArg0 hb rfl (by decide) (by decide)
  have hcmd : (s.setArg0 0x3E8).hostAccess (.write Config.retickBase 4 0x31)
      = .next ((s.setArg0 0x3E8).accept .tickrun) := by
    rw [State.hostAccess, hostWrite_cmd, offerCommand_accept (s := s.setArg0 0x3E8) (i := .tickrun) hb rfl]
  exact ⟨_, _, harg, hcmd, rfl, rfl⟩

/-! ### The placing of a table word -/

/-- Placing a table word that decodes is its acceptance in a state with no handler run and no turn pending (log entry
12). -/
theorem withFetchWord_eq_accept {nbits w : Nat} {i : Instr} (h : decodeTableWord nbits w = some i) (s : State) :
    ∃ t : State, t.irq.active = false ∧ t.world.sched = [] ∧ s.withFetchWord nbits w = t.accept i := by
  simp only [State.withFetchWord, State.placeCommand, h]
  exact ⟨_, rfl, rfl, rfl⟩

/-- Settles O7: the placed state is an acceptance, whose block turn `blockTurnRunsTheLatchedCommand` gives. -/
theorem placedWordIsRunNext : Obligations.PlacedWordIsRunNext := by
  intro s w i h
  have hi : i.wellFormed = true := wellFormed_of_decodeWord ((decodeTableWord_eq_some_iff 32 w i).1 h)
  obtain ⟨t, hactive, hsched, hplaced⟩ := withFetchWord_eq_accept h s
  obtain ⟨hstep, -, hcurrent⟩ := blockTurnRunsTheLatchedCommand
  rw [hplaced]
  refine ⟨rfl, hcurrent t i hi, ?_⟩
  rw [hstep (t.accept i) hactive rfl hsched, hcurrent t i hi]

end Sys2Proof.Machine


/-! The rows of ADCINIT and TEMPINIT around the conversion, and the last row of ADCREAD and TEMPRAW with what the ADC's
invariant makes of it (40_adc.md rules R128, R133, R135, 41_temp.md rules R151, R152). -/

namespace Sys2Proof.Machine

open Sys2Proof.Safety Sys2Proof.Statements

/-! ### ADCINIT and TEMPINIT -/

/-- ADCINIT's table with `ADC_RESET_SEQ` written out (40_adc.md rule R128). -/
def adcInitRows (s : State) : List MicroOp :=
  [.pwrite (.sysAdcBusClk true), .pwrite (.sysAdcSampClk true)] ++ adcResetRows s
    ++ adcS (.adcCtrlword 0x610) ++ adcS (.adcAccum 0x0A) ++ adcS (.adcSamptime 0x3F)
    ++ adcConvSeq Config.chInternal true ++ [.compute s.finish]

theorem stepTable_adcinit (s : State) : stepTable .adcinit s = adcInitRows s := by
  rw [stepTable, adcInitSeq, adcResetSeq_eq_rows]
  rfl

/-- TEMPINIT's table is the sensor enable and ADCINIT's table (41_temp.md rule R151). -/
theorem stepTable_tempinit (s : State) :
    stepTable .tempinit s = .pwrite (.sysTsensEn true) :: stepTable .adcinit s := rfl

/-- ADCINIT's rows before and after the conversion stand in the table of `i` after `o` micro-steps. -/
def initRowsAt (i : Instr) (o : Nat) : Prop :=
  writesAt i (o + 1) (.sysAdcBusClk true) ∧ writesAt i (o + 2) (.sysAdcSampClk true)
    ∧ resetRowsAt i (o + 2)
    ∧ writesSyncAt i (o + 8) .adc (.adcCtrlword 0x610) ∧ writesSyncAt i (o + 10) .adc (.adcAccum 0x0A)
    ∧ writesSyncAt i (o + 12) .adc (.adcSamptime 0x3F)
    ∧ completesAt i (o + 34) State.finish

/-- A command whose table holds ADCINIT's after `o` micro-steps answers its rows there. -/
theorem initRowsAt_of_table {i : Instr} {o : Nat}
    (h : ∀ s k, 1 ≤ k → tableAt (stepTable i s) (o + k) = tableAt (stepTable .adcinit s) k) : initRowsAt i o := by
  have row (s : State) (k : Nat) (h1 : 1 ≤ k) : tableAt (stepTable i s) (o + k) = tableAt (adcInitRows s) k := by
    rw [h s k h1, stepTable_adcinit]
  have reset : resetRowsAt i (o + 2) := resetRowsAt_of_table fun s k h1 h5 => by
    rw [Nat.add_assoc, row s (2 + k) (by omega), adcResetSeq_eq_rows]
    interval_cases k <;> rfl
  exact ⟨writesAt_of_row fun s => row s 1 (by decide), writesAt_of_row fun s => row s 2 (by decide), reset,
    writesSyncAt_of_rows (fun s => row s 8 (by decide)) (fun s => row s 9 (by decide)),
    writesSyncAt_of_rows (fun s => row s 10 (by decide)) (fun s => row s 11 (by decide)),
    writesSyncAt_of_rows (fun s => row s 12 (by decide)) (fun s => row s 13 (by decide)),
    completesAt_of_row (fun s => row s 34 (by decide)) fun _ => rfl⟩

theorem initRowsAt_adcinit : initRowsAt .adcinit 0 := initRowsAt_of_table fun s k _ => by rw [Nat.zero_add]

theorem initRowsAt_tempinit : initRowsAt .tempinit 1 := initRowsAt_of_table fun s k h1 => by
  rw [stepTable_tempinit]
  exact tableAt_append_right [_] _ k h1

theorem tempinit_enablesSensor : writesAt .tempinit 1 (.sysTsensEn true) := writesAt_of_row fun _ => rfl

/-- Settles O20: ADCINIT's rows stand in its own table from the start, in TEMPINIT's after the sensor enable. -/
theorem initStepTables : Obligations.InitStepTables :=
  ⟨initRowsAt_adcinit, tempinit_enablesSensor, initRowsAt_tempinit⟩

/-! ### The last row of ADCREAD and TEMPRAW -/

/-- `RES0 <- zext_32(s); done`, with the sample `s` in T0 (40_adc.md rule R133). -/
def returnSample (s : State) : State := (s.setRes0 s.seq.t0).finish

theorem adcread_returnsSample (c : Nat) (ref : Bool) : completesAt (.adcread c ref) 21 returnSample :=
  completesAt_last (.adcread c ref)

theorem tempraw_returnsSample : completesAt .tempraw 21 returnSample := completesAt_last .tempraw

/-- TEMPRAW is ADCREAD of the internal channel with the internal reference (41_temp.md rule R152). -/
theorem exec_tempraw (s : State) : exec .tempraw s = exec (.adcread 0x18 true) s := rfl

/-- Settles O21: the last row of both commands returns T0, and their tables are the same. -/
theorem sampleIsReturnedInRes0 : Obligations.SampleIsReturnedInRes0 :=
  ⟨fun c ref _ => adcread_returnsSample c ref, exec_tempraw,
    fun s hs => ⟨_, tempraw_returnsSample s hs, rfl, rfl⟩⟩

/-- The command in progress, if it is ADCREAD or TEMPRAW, returns the sample at STEP 21. -/
theorem exec_current_at_last {s : State} (hcur : s.seq.cur = .adcread ∨ s.seq.cur = .tempraw)
    (hstep : s.seq.step = 21) : exec s.current s = .next (returnSample s).advance := by
  rcases hcur with hcur | hcur <;> simp only [State.current, hcur]
  · exact adcread_returnsSample _ _ s hstep
  · exact tempraw_returnsSample s hstep

/-- Settles O22: at STEP 21 the conversion is over, and the ADC's invariant says what it left. -/
theorem returnedSampleIsThisConversions : Obligations.ReturnedSampleIsThisConversions := by
  intro s hinv hb hcur hstep
  have hoffset : convOffset s.seq.cur = some 0 := by rcases hcur with hcur | hcur <;> rw [hcur] <;> rfl
  have hpos : convPos s = 21 := by rw [convPos_of_offset hb hoffset, hstep]
  obtain ⟨hat, -⟩ := (adcInv_iff s).1 hinv
  rw [hpos] at hat
  obtain ⟨henable, hconverting, hready⟩ := hat.adcOff (.inr (by decide))
  have hres0 : HostReg.holding s.seq.t0 = { value := s.adc.result.setWidth 32, held := true } := by
    rw [hat.sample (by decide)]
    rfl
  exact ⟨_, exec_current_at_last hcur hstep, rfl, hres0, henable, hready, hconverting, hat.gain (by decide),
    hat.refsel (by decide), hat.posin (by decide), hat.negin (by decide), hat.samptime (by decide), rfl⟩

end Sys2Proof.Machine


/-! What one turn of ADCRESET, ADCINIT, ADCREAD, TEMPINIT and TEMPRAW leaves unchanged (40_adc.md rules R124, R128,
R135, 41_temp.md rules R151, R152). -/

namespace Sys2Proof.Machine

open Sys2Proof.Safety Sys2Proof.Statements

/-! ### The rows of the ADC commands -/

/-- The five commands that use the ADC. -/
def isAdcCommand : Instr → Bool
  | .adcreset | .adcinit | .adcread _ _ | .tempinit | .tempraw => true
  | _ => false

/-- The command is ADCREAD or TEMPRAW, whose table is a conversion from its first row. -/
def convertsOnly (i : Instr) : Prop := convOffset (opcodeOf i) = some 0

/-- The writes an ADC command may make: SWRST, ACCUM and CTRLWORD not where it converts only, the clock enables where it
initializes, the sensor enable under TEMPINIT alone. -/
def adcCommandWrites (i : Instr) : FieldWrite → Bool
  | .adcSwrst | .adcAccum _ | .adcCtrlword _ => convOffset (opcodeOf i) != some 0
  | .sysAdcBusClk _ | .sysAdcSampClk _ => decide (i = .adcinit ∨ i = .tempinit)
  | .sysTsensEn _ => decide (i = .tempinit)
  | w => w.periph == some .adc

/-- The micro-operations an ADC command may make before its last row. -/
def adcCommandOps (i : Instr) : MicroOp → Bool
  | .pwrite w => adcCommandWrites i w
  | .loadCalw0 | .loadCalw1 | .compute _ => false
  | _ => true

theorem earlierRows_adcCommandOps {i : Instr} (hi : isAdcCommand i = true) (s : State) :
    (earlierRows i s).all (adcCommandOps i) = true := by
  cases i with
  | adcreset | adcinit | tempinit =>
    simp only [earlierRows, adcInitSeq, adcResetSeq_eq_rows, adcResetRows, guardedRow]
    cases s.seq.t0 == 1 <;> rfl
  | adcread c r => rfl
  | tempraw => rfl
  | _ => cases hi

/-! ### The frame of one turn -/

/-- What one turn of the ADC command `i` from `s` to `t` leaves: everything outside the ADC but BUSY, STEP, T0, the
counter of draws, RES0 at the end of ADCREAD and TEMPRAW, and the enables the command's own rows write. -/
structure AdcTurn (i : Instr) (s t : State) : Prop where
  outside : sameOutsideAdc s t
  latches : sameLatches s t
  host : sameHost s t
  t1 : t.seq.t1 = s.seq.t1
  regs : t.regs = s.regs ∨ (convertsOnly i ∧ s.seq.step = 21)
  sys : i ≠ .adcinit → i ≠ .tempinit → t.sys = s.sys
  sensor : i ≠ .tempinit → t.sys.tsensEn = s.sys.tsensEn
  config : convertsOnly i → t.adc.accum = s.adc.accum ∧ t.adc.ctrlword = s.adc.ctrlword
    ∧ t.adc.swrst = s.adc.swrst ∧ t.adc.result = s.adc.result

section
variable {i : Instr} {s : State}

/-- A turn that reaches BUSY, STEP, T0 and, where the command returns a sample, RES0. -/
theorem adcTurn_of_seq {r : HostReg} {b : Bool} {k : Nat} {v : Word}
    (hregs : r = s.regs.res0 ∨ (convertsOnly i ∧ s.seq.step = 21)) :
    AdcTurn i s { s with regs := { s.regs with res0 := r }, seq := { s.seq with busy := b, step := k, t0 := v } } where
  outside := ⟨rfl, rfl, rfl, rfl, rfl, rfl, rfl, rfl, rfl, rfl, rfl⟩
  latches := ⟨rfl, rfl, rfl, rfl⟩
  host := ⟨rfl, rfl, rfl⟩
  t1 := rfl
  regs := hregs.imp_left fun h => by rw [h]
  sys _ _ := rfl
  sensor _ := rfl
  config _ := ⟨rfl, rfl, rfl, rfl⟩

/-- A write to an ADC field, to one of the configuration only where the command does not convert only. -/
theorem adcTurn_of_adcWrite {w : FieldWrite} (hw : w.periph = some .adc)
    (hconfig : convertsOnly i → ∀ a : Adc, (a.store w).accum = a.accum ∧ (a.store w).ctrlword = a.ctrlword
      ∧ (a.store w).swrst = a.swrst ∧ (a.store w).result = a.result) : AdcTurn i s (s.pwrite w).advance := by
  rw [pwrite_adc w s hw]
  exact ⟨⟨rfl, rfl, rfl, rfl, rfl, rfl, rfl, rfl, rfl, rfl, rfl⟩, ⟨rfl, rfl, rfl, rfl⟩, ⟨rfl, rfl, rfl⟩, rfl,
    .inl rfl, fun _ _ => rfl, fun _ => rfl, fun hi => hconfig hi s.adc⟩

/-- A write to the clock enables of the ADC or the sensor enable. -/
theorem adcTurn_of_enables {b c e : Bool} (hinit : i = .adcinit ∨ i = .tempinit)
    (hsensor : i ≠ .tempinit → e = s.sys.tsensEn) :
    AdcTurn i s { s with sys := { s.sys with adcBusClk := b, adcSampClk := c, tsensEn := e } }.advance where
  outside := ⟨rfl, rfl, rfl, rfl, rfl, rfl, rfl, rfl, rfl, rfl, rfl⟩
  latches := ⟨rfl, rfl, rfl, rfl⟩
  host := ⟨rfl, rfl, rfl⟩
  t1 := rfl
  regs := .inl rfl
  sys hne hne' := absurd hinit (by simp [hne, hne'])
  sensor := hsensor
  config _ := ⟨rfl, rfl, rfl, rfl⟩

theorem adcTurn_of_pwrite {w : FieldWrite} (h : adcCommandWrites i w = true) : AdcTurn i s (s.pwrite w).advance := by
  cases w with
  | adcSwrst | adcAccum _ | adcCtrlword _ =>
    have hi : ¬ convertsOnly i := by simpa [adcCommandWrites, convertsOnly] using h
    exact adcTurn_of_adcWrite rfl fun hconv => absurd hconv hi
  | sysAdcBusClk _ | sysAdcSampClk _ => exact adcTurn_of_enables (of_decide_eq_true h) fun _ => rfl
  | sysTsensEn _ =>
    have hi : i = .tempinit := of_decide_eq_true h
    exact adcTurn_of_enables (.inr hi) fun hne => absurd hi hne
  | timerEnable _ | timerPrescaler _ | timerTop _ | timerCount _ | timerMode _ | timerIntEn _ | matchClear
  | pendingClear | icEnable _ | icPrio _ | sysTimerClk _ => cases h
  | _ => exact adcTurn_of_adcWrite rfl fun _ _ => ⟨rfl, rfl, rfl, rfl⟩

/-- A row before the last. -/
theorem adcTurn_of_op {op : MicroOp} {u : State} (hop : adcCommandOps i op = true) (hrun : op.run s = .completes u) :
    AdcTurn i s u.advance := by
  cases op with
  | pwrite w => cases hrun; exact adcTurn_of_pwrite hop
  | nop => cases hrun; exact adcTurn_of_seq (.inl rfl)
  | readEnable => cases hrun; exact adcTurn_of_seq (.inl rfl)
  | readResult => cases hrun; exact adcTurn_of_seq (.inl rfl)
  | syncWait p => rw [eq_of_waitFor_completes hrun]; exact adcTurn_of_seq (.inl rfl)
  | pollReset => rw [eq_of_waitFor_completes hrun]; exact adcTurn_of_seq (.inl rfl)
  | pollReady => rw [eq_of_waitFor_completes hrun]; exact adcTurn_of_seq (.inl rfl)
  | loadCalw0 | loadCalw1 | compute _ => cases hop

/-- The last row. -/
theorem adcTurn_of_last (hi : isAdcCommand i = true) (hstep : s.seq.step = tableLength (opcodeOf i)) :
    AdcTurn i s (finalState i s).advance := by
  cases i with
  | adcreset | adcinit | tempinit => exact adcTurn_of_seq (.inl rfl)
  | adcread _ _ | tempraw => exact adcTurn_of_seq (.inr ⟨rfl, hstep⟩)
  | _ => cases hi

/-- Every turn of an ADC command meets the frame. -/
theorem adcTurn_of_exec {t : State} (hi : isAdcCommand i = true) (h : exec i s = .next t) : AdcTurn i s t := by
  cases seqTurn_of_exec h with
  | last hstep => exact adcTurn_of_last hi hstep
  | arm htick _ _ => subst htick; cases hi
  | period htick _ => subst htick; cases hi
  | plain _ hop _ hrun =>
    exact adcTurn_of_op (List.all_eq_true.1 (earlierRows_adcCommandOps hi s) _ (mem_of_tableAt hop)) hrun
  | held => exact adcTurn_of_seq (.inl rfl)

end

/-- Settles O45: the frame of one turn, read off for each of the five commands. -/
theorem adcCommandsFrame : Obligations.AdcCommandsFrame := by
  intro i s t hexec hi
  have hadc : isAdcCommand i = true := by rcases hi with rfl | rfl | rfl | rfl | ⟨c, ref, rfl⟩ <;> rfl
  obtain ⟨houtside, hlatches, hhost, ht1, hregs, hsys, hsensor, hconfig⟩ := adcTurn_of_exec hadc hexec
  refine ⟨houtside, hlatches, hhost, fun a => by rw [exec_mem hexec], ht1, fun hreset => ?_, fun hstep => ?_, hsys,
    hsensor, fun hread => hconfig ?_⟩
  · refine hregs.resolve_right fun ⟨hconv, _⟩ => ?_
    rcases hreset with rfl | rfl | rfl <;> cases hconv
  · exact hregs.resolve_right fun ⟨_, hlast⟩ => hstep hlast
  · rcases hread with rfl | ⟨c, ref, rfl⟩ <;> rfl

end Sys2Proof.Machine


/-! The whole calls of ADCINIT, TEMPINIT, ADCREAD and TEMPRAW: `ADC_CONV_SEQ` and ADCINIT's rows run under a schedule
that releases each wait, and the runs from the host's call (40_adc.md rules R126 to R129, R133 to R135, 41_temp.md rules
R151, R152). -/

namespace Sys2Proof.Machine

open Sys2Proof.Safety Sys2Proof.Statements

/-- The ADC after a `PWriteS` whose wait has been left: the write's store, the busy bit clear. -/
def Adc.settled (a : Adc) (wr : FieldWrite) : Adc := { a.store wr with syncBusy := false }

/-- The writes of `ADC_CONV_SEQ` before the conversion completes, rows c1 to c7 (40_adc.md rule R123). -/
def convWrites (ch : BitVec 5) (ref : Bool) : List FieldWrite :=
  [.adcGain (if ref then .x1 else .div2), .adcRefsel (if ref then .int1v else .halfSupply), .adcPosin ch,
   .adcNegin (if ref then .gndIntRef else .gndSupRef), .adcSamptime 0x3F, .adcEnable true, .adcStart]

/-- The rows of a conversion, one after another, leave the ADC as 40_adc.md rule R135 says. -/
theorem settled_conversion (a : Adc) (ch : BitVec 5) (ref : Bool) (v : BitVec 16) :
    ((((convWrites ch ref).foldl Adc.settled a).convert v).settled .adcReadyClear).settled (.adcEnable false)
      = adcAfter ch ref v a := by
  simp [convWrites, Adc.settled, Adc.convert, adcAfter]

/-- `s` with other system fields. -/
def State.withSys (f : SysFields) (s : State) : State := { s with sys := f }

/-- The system fields with the bus clock and the sampling clock of the ADC on. -/
def SysFields.adcClocked (f : SysFields) : SysFields := { f with adcBusClk := true, adcSampClk := true }

section
variable {i : Instr} {s : State} {k : Nat} {t0 : Word} {a : Adc} {ts : List Turn} (h : InCommand i s)
include h

theorem InCommand.withSys (f : SysFields) : InCommand i (s.withSys f) := ⟨h.noHandler, h.busy, h.current⟩

/-! ### Single rows -/

/-- A `PWriteS` on an ADC field, the busy bit falling between the write and the wait. -/
theorem InCommand.reaches_writeSync {wr : FieldWrite} (hwr : wr.periph = some .adc) (hrow : writesSyncAt i k .adc wr) :
    Reaches 3 (pairs .adc 1 ++ ts) (s.atRow k t0 a) ts (s.atRow (k + 2) t0 (a.settled wr)) := by
  obtain ⟨hwrite, hwait⟩ := hrow
  have cleared : Reaches 2 (.block :: .env (.syncClear .adc) :: .block :: ts) (s.atRow k t0 a) (.block :: ts)
      (s.atRow (k + 1) t0 (a.settled wr)) :=
    h.reaches_write_env hwr (fun _ => hwrite _ rfl) fun _ _ => rfl
  exact cleared.trans (h.reaches_wait hwait fun _ => rfl)

/-- A write that reaches the system fields alone, which needs no wait (10_state.md rule R38). -/
theorem InCommand.reaches_sysWrite {wr : FieldWrite} (hwr : ∀ u : State, u.pwrite wr = u.withSys (u.sys.store wr))
    (hrow : writesAt i k wr) :
    Reaches 1 (.block :: ts) (s.atRow k t0 a) ts ((s.withSys (s.sys.store wr)).atRow (k + 1) t0 a) :=
  (h.atRow k t0 a).reaches_row fun w =>
    (hrow _ rfl).trans (congrArg (fun u : State => Host.Outcome.next u.advance) (hwr ((s.atRow k t0 a).withWorld w)))

/-- Row c9, which puts the ADC's result into T0 (40_adc.md rule R123). -/
theorem InCommand.reaches_read (hrow : completesAt i k fun s => s.setT0 (s.adc.result.setWidth 32)) :
    Reaches 1 (.block :: ts) (s.atRow k t0 a) ts (s.atRow (k + 1) (a.result.setWidth 32) a) :=
  (h.atRow k t0 a).reaches_row fun w => hrow ((s.atRow k t0 a).withWorld w) rfl

/-- Row c7 and the poll c8, where the environment completes the conversion on the enabled ADC with the sample `v`
(40_adc.md rule R123). -/
theorem InCommand.reaches_sample {v : BitVec 16} (hen : a.enable = true) (hstart : writesSyncAt i k .adc .adcStart)
    (hpoll : waitsAt i (k + 2) fun s => s.adc.ready) :
    Reaches 5 (pairs .adc 1 ++ .env (.adcConv v) :: .block :: ts) (s.atRow k t0 a) ts
      (s.atRow (k + 3) t0 ((a.settled .adcStart).convert v)) := by
  have hconverting : (a.settled .adcStart).converting = true := by
    rw [Adc.settled, store_start_enabled a hen]
  have converted : Reaches 1 (.env (.adcConv v) :: .block :: ts) (s.atRow (k + 2) t0 (a.settled .adcStart))
      (.block :: ts) (s.atRow (k + 2) t0 ((a.settled .adcStart).convert v)) :=
    reaches_env fun w => by
      obtain ⟨hdone, -⟩ :=
        conversionsCompleteWithAnySample ((s.atRow (k + 2) t0 (a.settled .adcStart)).withWorld w) v
      exact hdone hconverting hen
  exact ((h.reaches_writeSync rfl hstart).trans converted).trans (h.reaches_wait hpoll fun _ => rfl)

/-! ### ADC_CONV_SEQ under a schedule -/

/-- `ADC_CONV_SEQ` where the environment completes the conversion with the sample `v`: the sample stands in T0, and the
ADC is left as 40_adc.md rule R135 says. -/
theorem InCommand.reaches_conversion {o : Nat} {ch : BitVec 5} {ref : Bool} (v : BitVec 16)
    (hrows : conversionRowsAt i o ch ref) :
    Reaches 30 (conversionTurns v ++ ts) (s.atRow (o + 1) t0 a) ts
      (s.atRow (o + 21) (v.setWidth 32) (adcAfter ch ref v a)) := by
  obtain ⟨hgain, hrefsel, hposin, hnegin, hsamptime, henable, hstart, hpoll, hread, hready, hdisable⟩ := hrows
  have gain := h.reaches_writeSync (t0 := t0) (a := a)
    (ts := pairs .adc 6 ++ ([.env (.adcConv v), .block, .block] ++ (pairs .adc 2 ++ ts))) rfl hgain
  have refsel := gain.trans (h.reaches_writeSync rfl hrefsel)
  have posin := refsel.trans (h.reaches_writeSync rfl hposin)
  have negin := posin.trans (h.reaches_writeSync rfl hnegin)
  have samptime := negin.trans (h.reaches_writeSync rfl hsamptime)
  have enable := samptime.trans (h.reaches_writeSync rfl henable)
  have sample := enable.trans (h.reaches_sample rfl hstart hpoll)
  have read := sample.trans (h.reaches_read hread)
  have ready := read.trans (h.reaches_writeSync rfl hready)
  rw [← settled_conversion]
  exact ready.trans (h.reaches_writeSync rfl hdisable)

/-! ### ADCINIT's rows under a schedule -/

/-- Rows i1 and i2, the two clocks (40_adc.md rule R128). -/
theorem InCommand.reaches_clocks (hbus : writesAt i k (.sysAdcBusClk true))
    (hsamp : writesAt i (k + 1) (.sysAdcSampClk true)) :
    Reaches 2 (.block :: .block :: ts) (s.atRow k t0 a) ts ((s.withSys s.sys.adcClocked).atRow (k + 2) t0 a) :=
  (h.reaches_sysWrite (fun u => pwrite_other _ u rfl) hbus).trans
    ((h.withSys _).reaches_sysWrite (fun u => pwrite_other _ u rfl) hsamp)

/-- The turns of ADCINIT's rows, each wait released. -/
def initTurns (d : AdcResetDraw) (v : BitVec 16) : List Turn :=
  [.block, .block] ++ resetTurns d ++ pairs .adc 3 ++ conversionTurns v

/-- The ADC as ADCINIT leaves it (40_adc.md rule R129). -/
def adcAfterInit (d : AdcResetDraw) (v : BitVec 16) : Adc :=
  adcAfter 0x18 true v { adcAfterReset d with ctrlword := 0x610, accum := 0x0A }

/-- ADCINIT's rows to the end, where the environment completes the reset with the draw `d` and the dummy conversion with
`v`. -/
theorem InCommand.reaches_init {o : Nat} (d : AdcResetDraw) (v : BitVec 16) (hrows : initRowsAt i o)
    (hconv : conversionRowsAt i (o + 13) 0x18 true) :
    Reaches 50 (initTurns d v ++ .block :: ts) (s.atRow (o + 1) t0 a) ts
      ((s.withSys s.sys.adcClocked).atRow (o + 35) (v.setWidth 32) (adcAfterInit d v)).finish := by
  obtain ⟨hbus, hsamp, hreset, hctrlword, haccum, hsamptime, hdone⟩ := hrows
  have hclocked := h.withSys s.sys.adcClocked
  have clocks := h.reaches_clocks (t0 := t0) (a := a)
    (ts := resetTurns d ++ (pairs .adc 3 ++ (conversionTurns v ++ .block :: ts))) hbus hsamp
  have reset := clocks.trans (hclocked.reaches_reset d hreset)
  have ctrlword := reset.trans (hclocked.reaches_writeSync rfl hctrlword)
  have accum := ctrlword.trans (hclocked.reaches_writeSync rfl haccum)
  have samptime := accum.trans (hclocked.reaches_writeSync rfl hsamptime)
  have conversion : Reaches 49 (initTurns d v ++ .block :: ts) (s.atRow (o + 1) t0 a) (.block :: ts)
      ((s.withSys s.sys.adcClocked).atRow (o + 34) (v.setWidth 32) (adcAfterInit d v)) :=
    samptime.trans (hclocked.reaches_conversion v hconv)
  exact conversion.trans ((hclocked.atRow _ _ _).reaches_row fun w => hdone (State.withWorld w _) rfl)

/-- TEMPINIT's rows: the sensor enable and ADCINIT's (41_temp.md rule R151). -/
theorem InCommand.reaches_sensor_init (d : AdcResetDraw) (v : BitVec 16)
    (hsensor : writesAt i 1 (.sysTsensEn true)) (hrows : initRowsAt i 1) (hconv : conversionRowsAt i 14 0x18 true) :
    Reaches 51 (.block :: (initTurns d v ++ .block :: ts)) (s.atRow 1 t0 a) ts
      ((s.withSys { s.sys.adcClocked with tsensEn := true }).atRow 36 (v.setWidth 32) (adcAfterInit d v)).finish := by
  have sensor := h.reaches_sysWrite (t0 := t0) (a := a) (ts := initTurns d v ++ .block :: ts)
    (fun u => pwrite_other _ u rfl) hsensor
  have init := (h.withSys (s.sys.store (.sysTsensEn true))).reaches_init (t0 := t0) (a := a) (ts := ts) d v hrows hconv
  exact sensor.trans init

/-! ### ADCREAD and TEMPRAW under a schedule -/

/-- A conversion and the row that returns its sample (40_adc.md rule R133). -/
theorem InCommand.reaches_returned {ch : BitVec 5} {ref : Bool} (v : BitVec 16) (hrows : conversionRowsAt i 0 ch ref)
    (hlast : completesAt i 21 returnSample) :
    Reaches 31 (conversionTurns v ++ .block :: ts) (s.atRow 1 t0 a) ts
      (returnSample (s.atRow 22 (v.setWidth 32) (adcAfter ch ref v a))) := by
  have conversion := h.reaches_conversion (t0 := t0) (a := a) (ts := .block :: ts) v hrows
  exact conversion.trans ((h.atRow _ _ _).reaches_row fun w => hlast (State.withWorld w _) rfl)

end

/-! ### The calls -/

/-- A call whose command uses up the turns `ts` to `rest` from its first row on, whatever T0 and the ADC hold there. -/
theorem run_call {w : Word} {i : Instr} {s : State} {ts rest : List Turn} {n : Nat} {final : State → State}
    (hidle : idle s) (hs : s.world.sched = call w :: ts) (hw : decodeWord w = .ok i)
    (hreach : ∀ (u : State) (t0 : Word), InCommand i u → u.adc = s.adc → u.sys = s.sys →
      Reaches n ts (u.atRow 1 t0 u.adc) rest (final u)) :
    ∃ w' : World, w'.sched = rest
      ∧ Host.Core.run core (1 + n) s = .next ((final ((s.setSched ts).accept i)).withWorld w') := by
  have hcommand := inCommand_accept (wellFormed_of_decodeWord hw) hidle ts
  obtain ⟨w', hw', hruns⟩ := hreach _ _ hcommand rfl rfl ((s.setSched ts).accept i).world rfl
  exact ⟨w', hw', ((runs_call hidle hs hw).trans hruns).run_eq⟩

/-- A call of ADCINIT or TEMPINIT, which ends with the ADC's fields `a` and the system fields `f`. -/
theorem run_initCall {w : Word} {i : Instr} {s : State} {ts rest : List Turn} {n k : Nat} {f : SysFields} {v : Word}
    {a : Adc} (hidle : idle s) (hs : s.world.sched = call w :: ts) (hw : decodeWord w = .ok i)
    (hclk : f.timerClk = s.sys.timerClk)
    (hreach : ∀ (u : State) (t0 : Word), InCommand i u → u.adc = s.adc → u.sys = s.sys →
      Reaches n ts (u.atRow 1 t0 u.adc) rest ((u.withSys f).atRow k v a).finish) :
    ∃ t, Host.Core.run core (1 + n) s = .next t ∧ t.seq.busy = false ∧ t.world.sched = rest ∧ t.adc = a
      ∧ t.sys = f ∧ t.regs = s.regs ∧ sameOutsideAdc s t := by
  obtain ⟨w', hw', hrun⟩ := run_call hidle hs hw hreach
  refine ⟨_, hrun, ?_⟩
  simp [sameOutsideAdc, State.withWorld, State.atRow, State.withSys, hclk, hw']

/-- Settles O24: ADCINIT's rows in the turns that release their waits, for TEMPINIT after the sensor enable. -/
theorem initCallsComplete : Obligations.InitCallsComplete := by
  obtain ⟨-, -, hconv, hconv'⟩ := conversionStepTable
  intro s d v rest hidle
  constructor
  · intro hsched
    refine run_initCall (i := .adcinit) (f := s.sys.adcClocked) (ts := initTurns d v ++ .block :: rest) (n := 50)
      (k := 35) (v := v.setWidth 32) hidle hsched rfl rfl fun u t0 hu _ hsys => ?_
    rw [← hsys]
    exact hu.reaches_init d v initRowsAt_adcinit hconv
  · intro hsched
    refine run_initCall (i := .tempinit) (f := { s.sys.adcClocked with tsensEn := true })
      (ts := .block :: (initTurns d v ++ .block :: rest)) (n := 51) (k := 36) (v := v.setWidth 32) hidle hsched
      rfl rfl fun u t0 hu _ hsys => ?_
    rw [← hsys]
    exact hu.reaches_sensor_init d v tempinit_enablesSensor initRowsAt_tempinit hconv'

/-- The command a call of ADCREAD or TEMPRAW starts: it decodes, converts from its first row and returns the sample. -/
theorem readCommand_of_word {w : Word} {ch : BitVec 5} {ref : Bool}
    (hw : w = encode (.adcread ch.toNat ref) ∨ (w = 0x21 ∧ ch = 0x18 ∧ ref = true)) :
    ∃ i, decodeWord w = .ok i ∧ conversionRowsAt i 0 ch ref ∧ completesAt i 21 returnSample := by
  obtain ⟨hadcread, htempraw, -, -⟩ := conversionStepTable
  rcases hw with rfl | ⟨rfl, rfl, rfl⟩
  · have hrows := hadcread ch.toNat ref ch.isLt
    rw [BitVec.ofNat_toNat, BitVec.setWidth_eq] at hrows
    exact ⟨_, decodeWord_encode_adcread ch ref, hrows, adcread_returnsSample _ _⟩
  · exact ⟨.tempraw, rfl, htempraw, tempraw_returnsSample⟩

/-- Settles O25: the host's call, `ADC_CONV_SEQ` in the thirty turns that release its waits, and the row that returns
the sample. -/
theorem readCallsReturnTheSample : Obligations.ReadCallsReturnTheSample := by
  intro s w ch ref v rest hidle hword hsched
  obtain ⟨i, hdecode, hrows, hlast⟩ := readCommand_of_word hword
  obtain ⟨w', hw', hrun⟩ := run_call (ts := conversionTurns v ++ .block :: rest) hidle hsched hdecode
    fun u t0 hu hadc _ => by
      rw [hadc]
      exact hu.reaches_returned v hrows hlast
  refine ⟨_, hrun, ?_⟩
  simp [returnSample, HostReg.holding, sameOutsideAdc, State.withWorld, State.atRow, hw']

end Sys2Proof.Machine


/-! The calibration words unpacked, and the two-point interpolation on them: its endpoints, its range and its
monotonicity (41_temp.md rules R153 to R164). -/

namespace Sys2Proof.Machine

/-! ### The calibration words -/

theorem scaledCode_eq_shiftLeft (code : BitVec 12) : scaledCode code = code.setWidth 16 <<< 4 := by
  apply BitVec.eq_of_toNat_eq
  rw [scaledCode_toNat, BitVec.toNat_shiftLeft, BitVec.toNat_setWidth, Nat.shiftLeft_eq]
  omega

/-- The fields of the two words: those below bit 32 of the joined quantity lie in CALW0, the codes in CALW1. -/
theorem unpack_eq (w0 w1 : Word) : unpack w0 w1 =
    { roomMdeg := pointMdeg (w0.extractLsb' 0 8) (w0.extractLsb' 8 4)
      hotMdeg := pointMdeg (w0.extractLsb' 12 8) (w0.extractLsb' 20 4)
      roomCode := scaledCode (w1.extractLsb' 8 12)
      hotCode := scaledCode (w1.extractLsb' 20 12) } := by
  have hlow {k n : Nat} (h : k + n ≤ 32) : (w1 ++ w0).extractLsb' k n = w0.extractLsb' k n :=
    BitVec.extractLsb'_append_eq_of_add_le h
  have hhigh {k n : Nat} : (w1 ++ w0).extractLsb' (32 + k) n = w1.extractLsb' k n := by
    rw [BitVec.extractLsb'_append_eq_of_le (Nat.le_add_right 32 k), Nat.add_sub_cancel_left]
  simp (disch := decide) only [unpack, unpackWith, Config.calLayout, hlow, hhigh]

/-- Settles O27: the fields by the layout, the scale of the codes and the range of a point. -/
theorem calibrationWordsUnpack : Obligations.CalibrationWordsUnpack := by
  intro w0 w1
  rw [unpack_eq]
  exact ⟨rfl, rfl, scaledCode_eq_shiftLeft _, scaledCode_eq_shiftLeft _, pointMdeg_le _ _, pointMdeg_le _ _⟩

/-- Two different codes unpacked from a word are at least 16 apart (41_temp.md rule R158). -/
theorem unpack_codes_apart {w0 w1 : Word} (h : (unpack w0 w1).hotCode ≠ (unpack w0 w1).roomCode) :
    16 ≤ (((unpack w0 w1).hotCode.toNat : Int) - (unpack w0 w1).roomCode.toNat).natAbs := by
  rw [ne_eq, ← BitVec.toNat_inj] at h
  rw [unpack_eq] at h ⊢
  simp only [scaledCode_toNat] at h ⊢
  omega

/-! ### The endpoints -/

/-- At the room code the interpolation is the room temperature. -/
@[simp] theorem interp_roomCode (c : CalibrationPair) : interp c c.roomCode = c.roomMdeg := by simp [interp]

/-- At the hot code the quotient is exact. -/
theorem interp_hotCode {c : CalibrationPair} (h : c.hotCode ≠ c.roomCode) : interp c c.hotCode = c.hotMdeg := by
  have hcodes : (c.hotCode.toNat : Int) - c.roomCode.toNat ≠ 0 := by
    rw [ne_eq, ← BitVec.toNat_inj] at h
    omega
  rw [interp, Int.mul_tdiv_cancel _ hcodes]
  omega

/-- Settles O31. -/
theorem interpolationEndpointsAreExact : Obligations.InterpolationEndpointsAreExact :=
  fun c h => ⟨interp_roomCode c, interp_hotCode h⟩

/-! ### The range -/

/-- The quotient is at most `256500 * 65535 / 16`, which is below 1050607969. -/
theorem natAbs_interp_sub_lt {c : CalibrationPair} (raw : BitVec 16) (hroom : c.roomMdeg ≤ 256500)
    (hhot : c.hotMdeg ≤ 256500) (hcodes : 16 ≤ ((c.hotCode.toNat : Int) - c.roomCode.toNat).natAbs) :
    (interp c raw - c.roomMdeg).natAbs < 1050607969 := by
  have hmdeg : ((c.hotMdeg : Int) - c.roomMdeg).natAbs ≤ 256500 := by omega
  have hraw : ((raw.toNat : Int) - c.roomCode.toNat).natAbs ≤ 65535 := by omega
  rw [interp, add_sub_cancel_left, Int.natAbs_tdiv, Int.natAbs_mul]
  calc _ ≤ 256500 * 65535 / 16 := Nat.div_le_div (Nat.mul_le_mul hmdeg hraw) hcodes (by decide)
    _ < 1050607969 := by decide

/-- Settles O30: the range of the quotient on unpacked words; the codes 0 and 1 for what lies beyond. -/
theorem interpolationFitsThirtyTwoBits : Obligations.InterpolationFitsThirtyTwoBits := by
  constructor
  · intro w0 w1 raw hne
    obtain ⟨-, -, -, -, hroom, hhot⟩ := calibrationWordsUnpack w0 w1
    have hcodes := unpack_codes_apart hne
    have hquot := natAbs_interp_sub_lt raw hroom hhot hcodes
    have hres : (interp (unpack w0 w1) raw).natAbs < 1050607969 + 256500 := by omega
    exact ⟨hcodes, hquot, hres, by omega, BitVec.toInt_ofInt_eq_self (by decide) (by omega) (by omega)⟩
  · exact ⟨{ roomMdeg := 0, hotMdeg := 256500, roomCode := 0, hotCode := 1 }, 65535, by decide⟩

/-! ### Monotonicity -/

/-- `d * x` and `e * x` have one sign, so that the truncating quotient of their sum by `d` is the sum of their
quotients. -/
theorem add_mul_tdiv {d e : Int} (hd : 0 < d) (he : 0 ≤ e) (x : Int) : ((d + e) * x).tdiv d = x + (e * x).tdiv d := by
  have hnonneg (n : Nat) : ((d + e) * n).tdiv d = n + (e * n).tdiv d := by
    have hen : 0 ≤ e * (n : Int) := by positivity
    rw [Int.tdiv_eq_ediv_of_nonneg (by positivity), Int.tdiv_eq_ediv_of_nonneg hen, add_mul,
      Int.add_ediv_of_dvd_left (dvd_mul_right d _), Int.mul_ediv_cancel_left _ hd.ne']
  obtain ⟨n, rfl | rfl⟩ := x.eq_nat_or_neg
  · exact hnonneg n
  · rw [mul_neg, mul_neg, Int.neg_tdiv, Int.neg_tdiv, hnonneg, neg_add]

section
variable {c : CalibrationPair}

/-- On a rising pair of codes the interpolation follows the product. -/
theorem interp_le_of_mul_le {a b : BitVec 16} (hcode : c.roomCode.toNat < c.hotCode.toNat)
    (h : ((c.hotMdeg : Int) - c.roomMdeg) * ((a.toNat : Int) - c.roomCode.toNat)
      ≤ ((c.hotMdeg : Int) - c.roomMdeg) * ((b.toNat : Int) - c.roomCode.toNat)) : interp c a ≤ interp c b :=
  Int.add_le_add_left (Int.tdiv_le_tdiv (by omega) h) _

theorem interp_mono (hcode : c.roomCode.toNat < c.hotCode.toNat) (hmdeg : c.roomMdeg ≤ c.hotMdeg) {a b : BitVec 16}
    (hab : a.toNat ≤ b.toNat) : interp c a ≤ interp c b :=
  interp_le_of_mul_le hcode (mul_le_mul_of_nonneg_left (by omega) (by omega))

theorem interp_anti (hcode : c.roomCode.toNat < c.hotCode.toNat) (hmdeg : c.hotMdeg < c.roomMdeg) {a b : BitVec 16}
    (hab : a.toNat ≤ b.toNat) : interp c b ≤ interp c a :=
  interp_le_of_mul_le hcode (mul_le_mul_of_nonpos_left (by omega) (by omega))

/-- Where the temperatures are at least as far apart as the codes, each code adds 1 and a share that does not fall. -/
theorem interp_strictMono (hcode : c.roomCode.toNat < c.hotCode.toNat)
    (hsteep : (c.hotCode.toNat : Int) - c.roomCode.toNat ≤ (c.hotMdeg : Int) - c.roomMdeg) {a b : BitVec 16}
    (hab : a.toNat < b.toNat) : interp c a < interp c b := by
  obtain ⟨e, he⟩ := Int.le.dest hsteep
  have hd : 0 < (c.hotCode.toNat : Int) - c.roomCode.toNat := by omega
  have hshare : ((e : Int) * ((a.toNat : Int) - c.roomCode.toNat)).tdiv (c.hotCode.toNat - c.roomCode.toNat)
      ≤ ((e : Int) * ((b.toNat : Int) - c.roomCode.toNat)).tdiv (c.hotCode.toNat - c.roomCode.toNat) :=
    Int.tdiv_le_tdiv hd (mul_le_mul_of_nonneg_left (by omega) (by omega))
  rw [interp, interp, ← he, add_mul_tdiv hd (by omega), add_mul_tdiv hd (by omega)]
  omega

theorem toNat_roomCode_add_one (hcode : c.roomCode.toNat < c.hotCode.toNat) :
    (c.roomCode + 1).toNat = c.roomCode.toNat + 1 := by
  bv_omega

/-- Where the temperatures are less far apart than the codes, the code after the room code adds nothing. -/
theorem interp_roomCode_add_one_le (hcode : c.roomCode.toNat < c.hotCode.toNat)
    (hflat : (c.hotMdeg : Int) - c.roomMdeg < (c.hotCode.toNat : Int) - c.roomCode.toNat) :
    interp c (c.roomCode + 1) ≤ interp c c.roomCode := by
  have hquot : ((c.hotMdeg : Int) - c.roomMdeg).tdiv (c.hotCode.toNat - c.roomCode.toNat) ≤ 0 :=
    calc _ ≤ ((c.hotCode.toNat : Int) - c.roomCode.toNat - 1).tdiv (c.hotCode.toNat - c.roomCode.toNat) :=
        Int.tdiv_le_tdiv (by omega) (by omega)
      _ = 0 := Int.tdiv_eq_zero_of_lt (by omega) (by omega)
  rw [interp_roomCode, interp, toNat_roomCode_add_one hcode, Nat.cast_succ, add_sub_cancel_left, mul_one]
  omega

end

/-- Settles O32: the code after the room code shows both where the interpolation is not strict and where it is flat. -/
theorem interpolationIsMonotone : Obligations.InterpolationIsMonotone := by
  intro c hcode
  have hsucc := toNat_roomCode_add_one hcode
  refine ⟨fun hmdeg a b => interp_mono hcode hmdeg, fun hmdeg a b => interp_anti hcode hmdeg,
    ⟨fun hstrict => ?_, fun hsteep a b => interp_strictMono hcode hsteep⟩, fun hmdeg hflat => ?_⟩
  · by_contra hflat
    exact (hstrict c.roomCode (c.roomCode + 1) (by omega)).not_ge (interp_roomCode_add_one_le hcode (by omega))
  · exact ⟨c.roomCode, by omega,
      le_antisymm (interp_roomCode_add_one_le hcode hflat) (interp_mono hcode hmdeg (by omega))⟩

/-! ### The source's scenario -/

/-- Refutes O33: 2000 is 16 times 125, so the CALW1 whose bits 19:8 are 125 unpacks to the room code 2000. -/
theorem not_sourceMidpointScenario : ¬ Obligations.SourceMidpointScenario := by
  rintro ⟨-, hcodes, -, -⟩
  obtain ⟨-, -, hroom, -⟩ := hcodes 0 0x00007D00
  exact hroom (by decide)

end Sys2Proof.Machine


/-! What one turn of TEMPCONV, TICKCOMP and TICKTAKE leaves unchanged (41_temp.md rule R157, 42_tick.md rules R185,
R195). -/

namespace Sys2Proof.Machine

open Sys2Proof.Safety Sys2Proof.Statements

section
variable {s t : State}

/-- A row that completes with `f` at `k` leads to nothing else from there. -/
theorem eq_of_completesAt {i : Instr} {k : Nat} {f : State → State} (hrow : completesAt i k f) (hs : s.seq.step = k)
    (h : exec i s = .next t) : t = (f s).advance := by
  rw [hrow s hs] at h
  cases h
  rfl

/-- A command whose table is one row leads to its final state. -/
theorem eq_finalState_of_one_row {i : Instr} (hi : tableLength (opcodeOf i) = 1) (h : exec i s = .next t) :
    t = (finalState i s).advance := by
  obtain ⟨⟨h1, h2⟩, -⟩ := exec_cases h
  exact eq_of_completesAt (completesAt_last i) (by omega) h

/-- What TEMPCONV's rows reach: RES0, CALERR, BUSY, STEP, T0, T1 and the counter of draws. -/
theorem exec_tempconv_eq (h : exec .tempconv s = .next t) :
    ∃ r c b k t0 t1 n, t = { s with
      regs := { s.regs with res0 := r }, calErr := c,
      seq := { s.seq with busy := b, step := k, t0 := t0, t1 := t1 }, world := { s.world with draws := n } } := by
  obtain ⟨⟨h1, h2⟩, -⟩ := exec_cases h
  change s.seq.step ≤ 3 at h2
  obtain hs | hs | hs : s.seq.step = 1 ∨ s.seq.step = 2 ∨ s.seq.step = 3 := by omega
  · exact ⟨_, _, _, _, _, _, _, eq_of_completesAt tempconv_reads_calw0 hs h⟩
  · exact ⟨_, _, _, _, _, _, _, eq_of_completesAt tempconv_reads_calw1 hs h⟩
  · obtain rfl := eq_of_completesAt tempconv_converts hs h
    by_cases hcode : (unpack s.seq.t0 s.seq.t1).hotCode = (unpack s.seq.t0 s.seq.t1).roomCode
    · rw [convertStep_of_eq hcode]
      exact ⟨_, _, _, _, _, _, _, rfl⟩
    · rw [convertStep_of_ne hcode]
      exact ⟨_, _, _, _, _, _, _, rfl⟩

end

/-- Settles O46: what each of the three commands reaches. -/
theorem arithmeticCommandsFrame : Obligations.ArithmeticCommandsFrame := by
  rintro i s t hexec (rfl | rfl | rfl)
  on_goal 1 => obtain ⟨_, _, _, _, _, _, _, rfl⟩ := exec_tempconv_eq hexec
  on_goal 2 => obtain rfl := eq_finalState_of_one_row rfl hexec
  on_goal 3 => obtain rfl := eq_finalState_of_one_row rfl hexec
  all_goals
    refine ⟨⟨rfl, rfl, rfl, rfl⟩, rfl, rfl, rfl, rfl, ⟨rfl, rfl, rfl, rfl⟩, ⟨rfl, rfl, rfl⟩, fun _ => rfl, ?_⟩
  · exact ⟨fun _ => rfl, fun hi => absurd rfl hi, fun _ => rfl⟩
  · exact ⟨fun hi => absurd rfl hi, fun _ => ⟨rfl, rfl, rfl⟩, fun _ => rfl⟩
  · exact ⟨fun _ => rfl, fun _ => ⟨rfl, rfl, rfl⟩, fun hi => absurd rfl hi⟩

end Sys2Proof.Machine


/-! TICKRUN's turn by the row at STEP, and two invariants kept by every step of every agent: no interrupt before the block
is armed (70_reset_and_hazards.md rule R261), and the timer of an armed block (42_tick.md rule R191). -/

namespace Sys2Proof.Machine

open Sys2Proof.Safety Sys2Proof.Statements

/-! ### Steps of every agent -/

/-- What a host access leads to: a state in which only the host registers, CMDERR and the model's own fields differ, or
the acceptance of a command by an idle block. -/
theorem hostAccess_next_cases {a : HostAccess} {s t : State} (h : s.hostAccess a = .next t) :
    (∃ g c w, t = { s with regs := g, cmdErr := c, world := w }) ∨ ∃ i, s.seq.busy = false ∧ t = s.accept i := by
  rcases hostAccess_cases h with ⟨v, rfl⟩ | ⟨-, v, rfl⟩ | ⟨w, rfl⟩ | rfl | rfl
  · exact .inl ⟨_, _, _, rfl⟩
  · exact .inl ⟨_, s.cmdErr, s.world, rfl⟩
  · rcases offerCommand_cases w s with he | ⟨hb, i, -, he⟩ <;> rw [he]
    · exact .inl ⟨s.regs, true, s.world, rfl⟩
    · exact .inr ⟨i, hb, rfl⟩
  · exact .inl ⟨_, _, _, rfl⟩
  · exact .inl ⟨_, _, _, rfl⟩

/-- How a predicate that asks nothing of the host registers, CMDERR and the model's own fields is shown to be kept by
every step of every agent. -/
structure KeptByAgents (P : State → Prop) : Prop where
  host : ∀ {s : State} (g : HostRegs) (c : Bool) (w : World), P s → P { s with regs := g, cmdErr := c, world := w }
  exec : ∀ {s t : State}, s.seq.busy = true → exec s.current s = .next t → P s → P t
  accept : ∀ {s : State} (i : Instr), s.seq.busy = false → P s → P (s.accept i)
  handler : ∀ {s : State}, s.irq.active = true → P s → P s.handlerStep
  enter : ∀ {s : State}, s.canEnterHandler = true → P s → P s.enterHandler
  env : ∀ {s : State} (e : EnvStep), P s → P (s.envStep e)
  reset : ∀ s : State, P s.systemReset

theorem KeptByAgents.step {P : State → Prop} (hP : KeptByAgents P) {s t : State} (hs : P s) (h : step s = .next t) :
    P t := by
  obtain ⟨tn, ts, hturn, -⟩ := step_cases h
  have hs : P (s.setSched ts) := hP.host _ _ _ hs
  rcases takeTurn_cases hturn with ⟨-, ha, rfl⟩ | ⟨-, -, hb, hexec⟩ | ⟨a, -, -, -, hacc⟩ | ⟨-, rfl⟩ | ⟨-, hcan, rfl⟩
    | ⟨e, -, rfl⟩ | ⟨-, rfl⟩ | rfl
  · exact hP.handler ha hs
  · exact hP.exec hb hexec hs
  · rcases hostAccess_next_cases hacc with ⟨g, c, w, rfl⟩ | ⟨i, hb, rfl⟩
    · exact hP.host g c w hs
    · exact hP.accept i hb hs
  · exact hP.host _ _ _ hs
  · exact hP.enter hcan hs
  · exact hP.env e hs
  · exact hP.reset _
  · exact hs

/-! ### TICKRUN's rows -/

/-- The write of a setup row of TICKRUN (42_tick.md rule R187). -/
def setupWrite : Nat → Option FieldWrite
  | 1 => some (.sysTimerClk true)
  | 2 => some (.timerPrescaler 0)
  | 4 => some (.timerMode .countOnMatch)
  | 6 => some (.timerIntEn true)
  | 8 => some (.icPrio .lowest)
  | 9 => some (.icEnable true)
  | _ => none

/-- The write of a row of TICKRUN's arm sequence (42_tick.md rule R190). -/
def armWrite (tk : TickTimer) : Nat → Option FieldWrite
  | 11 => some (.timerEnable false)
  | 14 => some (.timerCount 0)
  | 16 => some (.timerPrescaler tk.divShift)
  | 18 => some (.timerTop tk.top)
  | 20 => some (.timerEnable true)
  | _ => none

/-- TICKRUN's rows by kind: a setup row skipped because ARMED = 1, a wait, a write, an internal computation. -/
inductive TickrunRow (s : State) (k : Nat) : MicroOp → Prop
  | skip (harmed : s.tick.armed = true) (hk : k ≤ 10) : TickrunRow s k .nop
  | wait (hk : k ∈ [3, 5, 7, 12, 15, 17, 19, 21]) : TickrunRow s k (.syncWait .timer)
  | write {w : FieldWrite} (hw : (s.tick.armed = false ∧ setupWrite k = some w) ∨ armWrite s.tick k = some w) :
      TickrunRow s k (.pwrite w)
  | compute {u : State} : TickrunRow s k (.compute u)

/-- The kind of every row of TICKRUN's table. -/
theorem tickrunRow_of_tableAt {s : State} {k : Nat} {op : MicroOp} (hop : tableAt (tickrunRows s) k = some op) :
    TickrunRow s k op := by
  obtain ⟨h1, h2⟩ := index_of_tableAt hop
  change k ≤ 22 at h2
  cases ha : s.tick.armed with
  | false =>
    simp only [tickrunRows, setupRow_of_first ha] at hop
    interval_cases k <;> cases hop <;> constructor <;> simp [ha, setupWrite, armWrite]
  | true =>
    simp only [tickrunRows, setupRow_of_later ha] at hop
    interval_cases k <;> cases hop <;> constructor <;> simp [ha, armWrite]

/-- One turn of TICKRUN: the state it leads to, by the row at STEP. -/
inductive TickrunTurn (s : State) : State → Prop
  /-- A setup row where ARMED = 1. -/
  | skip (harmed : s.tick.armed = true) (hstep : s.seq.step ≤ 10) : TickrunTurn s s.advance
  /-- A wait step that is enabled. -/
  | wait (hstep : s.seq.step ∈ [3, 5, 7, 12, 15, 17, 19, 21]) : TickrunTurn s s.advance
  /-- A row that writes a peripheral field. -/
  | write {w : FieldWrite}
      (hw : (s.tick.armed = false ∧ setupWrite s.seq.step = some w) ∨ armWrite s.tick s.seq.step = some w) :
      TickrunTurn s (s.pwrite w).advance
  /-- Row s7. -/
  | arm (hstep : s.seq.step = 10) (harmed : s.tick.armed = false) : TickrunTurn s s.setArmed.advance
  /-- Row a2. -/
  | period (hstep : s.seq.step = 13) : TickrunTurn s (s.applyPeriod s.seq.lArg).advance
  /-- Row u3. -/
  | last (hstep : s.seq.step = 22) : TickrunTurn s (returnFirst s).advance
  /-- A wait step that is not enabled. -/
  | held : TickrunTurn s s

/-- Everything one turn of TICKRUN can do, by the row at STEP. -/
theorem tickrunTurn_of_exec {s t : State} (h : exec .tickrun s = .next t) : TickrunTurn s t := by
  cases seqTurn_of_exec h with
  | last hstep => exact .last hstep
  | arm _ hstep harmed => exact .arm hstep harmed
  | period _ hstep => exact .period hstep
  | held => exact .held
  | plain hlt hop hplain hrun =>
    obtain ⟨h1, -⟩ := index_of_tableAt hop
    rw [← tableAt_earlier .tickrun s _ h1 hlt, stepTable_tickrun] at hop
    cases tickrunRow_of_tableAt hop with
    | skip harmed hk => cases hrun; exact .skip harmed hk
    | wait hk => rw [eq_of_waitFor_completes hrun]; exact .wait hk
    | write hw => cases hrun; exact .write hw
    | compute => cases hplain

/-- A write of the setup reaches neither TIMER.ENABLE, MATCHFLAG nor IC.PENDING. -/
theorem setupWrite_quiet {k : Nat} {w : FieldWrite} (hw : setupWrite k = some w) (s : State) :
    (s.pwrite w).timer.enable = s.timer.enable ∧ (s.pwrite w).timer.matchFlag = s.timer.matchFlag
      ∧ (s.ic.store w).pending = s.ic.pending := by
  unfold setupWrite at hw
  split at hw <;> cases hw <;> exact ⟨rfl, rfl, rfl⟩

theorem setupWrite_index {k : Nat} {w : FieldWrite} (hw : setupWrite k = some w) : k ≤ 9 := by
  unfold setupWrite at hw
  split at hw <;> cases hw <;> decide

theorem armWrite_index {tk : TickTimer} {k : Nat} {w : FieldWrite} (hw : armWrite tk k = some w) : 11 ≤ k := by
  unfold armWrite at hw
  split at hw <;> cases hw <;> decide

/-- The commands other than TICKRUN leave TickTimerState, the timer, the controller and the timer's clock alone, and CUR
as it is. -/
theorem exec_frame_of_ne_tickrun {i : Instr} {s t : State} (h : exec i s = .next t) (hi : i ≠ .tickrun) :
    t.tick = s.tick ∧ t.irq = s.irq ∧ t.timer = s.timer ∧ t.ic = s.ic ∧ t.sys.timerClk = s.sys.timerClk
      ∧ t.seq.cur = s.seq.cur := by
  cases hadc : isAdcCommand i with
  | true =>
    obtain ⟨⟨-, -, htick, -, -, -, hirq, htimer, hic, hclk, -⟩, ⟨hcur, -⟩, -⟩ := adcTurn_of_exec hadc h
    exact ⟨htick, hirq, htimer, hic, hclk, hcur⟩
  | false =>
    have harith : i = .tempconv ∨ i = .tickcomp ∨ i = .ticktake := by
      cases i <;> simp_all [isAdcCommand]
    obtain ⟨⟨-, htimer, hic, hsys⟩, htick, hirq, -, -, ⟨hcur, -⟩, -⟩ := arithmeticCommandsFrame i s t h harith
    exact ⟨htick, hirq, htimer, hic, congrArg SysFields.timerClk hsys, hcur⟩

theorem cur_ne_tickrun {s : State} (h : s.current ≠ .tickrun) : s.seq.cur ≠ .tickrun :=
  fun hcur => h (current_eq_tickrun hcur)

/-! ### Before the block is armed -/

/-- Of an armed block `QuietInv` asks nothing. -/
theorem quietInv_of_armed {s : State} (h : s.tick.armed = true) : QuietInv s :=
  ⟨fun _ _ _ => h, fun hnot => by rw [h] at hnot; cases hnot⟩

/-- A turn of TICKRUN on a quiet block that is not armed: a wait or a write of the setup, or it arms the block. -/
theorem quietInv_of_tickrunTurn {s t : State} (h : QuietInv s) (ha : s.tick.armed = false) (hb : s.seq.busy = true)
    (hcur : s.seq.cur = .tickrun) (hturn : TickrunTurn s t) : QuietInv t := by
  obtain ⟨hpast, hquiet⟩ := h
  have hle : s.seq.step ≤ 10 := by
    by_contra hgt
    have := hpast hb hcur (by omega)
    simp [ha] at this
  cases hturn with
  | skip harmed _ => exact quietInv_of_armed harmed
  | wait hstep =>
    refine ⟨fun _ _ (hgt : 10 < s.seq.step + 1) => ?_, hquiet⟩
    simp only [List.mem_cons, List.not_mem_nil, or_false] at hstep
    omega
  | write hw =>
    obtain ⟨-, hw⟩ | hw := hw
    · obtain ⟨henable, hmatch, hpending⟩ := setupWrite_quiet hw s
      have hk := setupWrite_index hw
      refine ⟨fun _ _ hgt => ?_, fun _ => ?_⟩
      · have hgt : 10 < s.seq.step + 1 := by simpa using hgt
        omega
      · simpa [henable, hmatch, hpending] using hquiet ha
    · have := armWrite_index hw
      omega
  | arm _ _ => exact quietInv_of_armed rfl
  | period hstep => omega
  | last hstep => omega
  | held => exact ⟨hpast, hquiet⟩

theorem quietInv_keptByAgents : KeptByAgents QuietInv where
  host _ _ _ h := h
  exec := by
    intro s t hb hexec h
    have hturn := seqTurn_of_exec hexec
    cases ha : s.tick.armed with
    | true => exact quietInv_of_armed (hturn.keepsSticky.armed ha)
    | false =>
      by_cases hi : s.current = .tickrun
      · rw [hi] at hexec
        exact quietInv_of_tickrunTurn h ha hb (cur_of_current hi) (tickrunTurn_of_exec hexec)
      · obtain ⟨-, hirq, htimer, hic, -, hcur⟩ := exec_frame_of_ne_tickrun hexec hi
        obtain ⟨-, hquiet⟩ := h
        obtain ⟨henable, hmatch, hpending, hactive, hpend⟩ := hquiet ha
        refine ⟨fun _ ht => absurd (hcur ▸ ht) (cur_ne_tickrun hi), fun _ => ?_⟩
        rw [htimer, hic, hirq]
        refine ⟨henable, hmatch, hpending, hactive, ?_⟩
        rcases hturn.tickPend with hsame | ⟨-, -, hfalse⟩
        · rw [hsame, hpend]
        · exact hfalse
  accept := by
    rintro s i - ⟨-, hquiet⟩
    exact ⟨fun _ _ hgt => by simp at hgt, hquiet⟩
  handler := by
    rintro s hactive ⟨-, hquiet⟩
    refine quietInv_of_armed ?_
    by_contra ha
    obtain ⟨-, -, -, hidle, -⟩ := hquiet (by simpa using ha)
    simp [hactive] at hidle
  enter := by
    rintro s hcan ⟨-, hquiet⟩
    refine quietInv_of_armed ?_
    by_contra ha
    obtain ⟨-, -, hnone, -, -⟩ := hquiet (by simpa using ha)
    simp [State.canEnterHandler, hnone] at hcan
  env := by
    intro s e h
    cases ha : s.tick.armed with
    | true => exact quietInv_of_armed (by simpa using ha)
    | false =>
      obtain ⟨hpast, hquiet⟩ := h
      obtain ⟨hoff, -⟩ := hquiet ha
      cases e with
      | syncClear p => cases p <;> exact ⟨hpast, hquiet⟩
      | adcReset d => simp only [State.envStep]; split <;> exact ⟨hpast, hquiet⟩
      | adcConv v => simp only [State.envStep]; split <;> exact ⟨hpast, hquiet⟩
      | timerTick =>
        have hsame : s.envStep .timerTick = s := if_neg (by simp [State.timerRuns, hoff])
        rw [hsame]
        exact ⟨hpast, hquiet⟩
  reset s := ⟨fun hb => (by cases hb), fun _ => ⟨rfl, rfl, rfl, rfl, rfl⟩⟩

/-- Settles O54: before ARMED the timer is off, so no match comes and no handler run starts; of TICKRUN's rows only the
setup's and s7 come before it. -/
theorem noInterruptBeforeArming : Obligations.NoInterruptBeforeArming := fun _ _ => quietInv_keptByAgents.step

/-! ### The timer along a TICKRUN and outside it -/

/-- The micro-step a TICKRUN in progress takes next; 0 where none is in progress. -/
def runPos (s : State) : Nat := if s.seq.busy = true ∧ s.seq.cur = .tickrun then s.seq.step else 0

theorem runPast_iff (k : Nat) (s : State) : runPast k s ↔ k < runPos s := by
  unfold runPast runPos
  split
  · rename_i h
    simp [h]
  · rename_i h
    simp only [Nat.not_lt_zero, iff_false]
    exact fun ⟨hb, hcur, _⟩ => h ⟨hb, hcur⟩

/-- The one-time setup as it stands in the timer, the controller and the timer's clock (42_tick.md rule R187). -/
def SetupDone (tm : Timer) (c : IntCtl) (clk : Bool) : Prop :=
  clk = true ∧ tm.mode = .countOnMatch ∧ tm.intEn = true ∧ c.prio = .lowest ∧ c.enable = true

/-- The block is armed and the timer runs with DIVSHIFT and TOP (42_tick.md rule R191). -/
def RunsArmed (tk : TickTimer) (tm : Timer) : Prop :=
  tk.armed = true ∧ tm.enable = true ∧ tm.prescaler = tk.divShift ∧ tm.top = tk.top

/-- What TickTimerState, the timer, the controller and the timer's clock hold at position `p` of a TICKRUN (`runPos`; 0
outside one): the clauses of `ArmInv`. -/
structure ArmAt (p : Nat) (tk : TickTimer) (tm : Timer) (c : IntCtl) (clk : Bool) : Prop where
  setup : tk.armed = true → SetupDone tm c clk
  clock : 1 < p → clk = true
  mode : 4 < p → tm.mode = .countOnMatch
  intEn : 6 < p → tm.intEn = true
  prio : 8 < p → c.prio = .lowest
  icEnable : 9 < p → c.enable = true
  armed : 10 < p → tk.armed = true
  prescaler : 16 < p → tm.prescaler = tk.divShift
  top : 18 < p → tm.top = tk.top
  enable : 20 < p → tm.enable = true
  running : tk.started = true → p ≤ 11 → RunsArmed tk tm

theorem armInv_iff (s : State) : ArmInv s ↔ ArmAt (runPos s) s.tick s.timer s.ic s.sys.timerClk := by
  simp only [ArmInv, runPast_iff, Nat.not_lt]
  constructor
  · rintro ⟨h1, h2, h3, h4, h5, h6, h7, h8, h9, h10, h11⟩
    exact ⟨h1, h2, h3, h4, h5, h6, h7, h8, h9, h10, h11⟩
  · rintro ⟨h1, h2, h3, h4, h5, h6, h7, h8, h9, h10, h11⟩
    exact ⟨h1, h2, h3, h4, h5, h6, h7, h8, h9, h10, h11⟩

section
variable {p : Nat} {tk : TickTimer} {tm : Timer} {c : IntCtl} {clk : Bool}

/-- Outside a TICKRUN and at its first row only what stands of an armed and of a started block is asked. -/
theorem armAt_outside (hp : p ≤ 1) (setup : tk.armed = true → SetupDone tm c clk)
    (running : tk.started = true → RunsArmed tk tm) : ArmAt p tk tm c clk where
  setup := setup
  clock _ := by omega
  mode _ := by omega
  intEn _ := by omega
  prio _ := by omega
  icEnable _ := by omega
  armed _ := by omega
  prescaler _ := by omega
  top _ := by omega
  enable _ := by omega
  running hst _ := running hst

/-- In the setup, while the block is not armed, only what the setup has written so far is asked. -/
theorem armAt_of_unarmed (harmed : tk.armed = false) (hstarted : tk.started = false) (hp : p ≤ 10)
    (clock : 1 < p → clk = true) (mode : 4 < p → tm.mode = .countOnMatch) (intEn : 6 < p → tm.intEn = true)
    (prio : 8 < p → c.prio = .lowest) (icEnable : 9 < p → c.enable = true) : ArmAt p tk tm c clk where
  setup ha := by simp [harmed] at ha
  clock := clock
  mode := mode
  intEn := intEn
  prio := prio
  icEnable := icEnable
  armed _ := by omega
  prescaler _ := by omega
  top _ := by omega
  enable _ := by omega
  running hst _ := by simp [hstarted] at hst

/-- Of an armed block the setup is asked, and what the arm sequence has written so far. -/
theorem armAt_of_armed (harmed : tk.armed = true) (setup : SetupDone tm c clk)
    (prescaler : 16 < p → tm.prescaler = tk.divShift) (top : 18 < p → tm.top = tk.top)
    (enable : 20 < p → tm.enable = true) (running : tk.started = true → p ≤ 11 → RunsArmed tk tm) : ArmAt p tk tm c clk := by
  have ⟨hclk, hmode, hint, hprio, henable⟩ := setup
  exact ⟨fun _ => setup, fun _ => hclk, fun _ => hmode, fun _ => hint, fun _ => hprio, fun _ => henable,
    fun _ => harmed, prescaler, top, enable, running⟩

/-- STARTED is 0 while ARMED is: TICKRUN is not past its setup then, so a started block would be armed. -/
theorem ArmAt.not_started (h : ArmAt p tk tm c clk) (harmed : tk.armed = false) : tk.started = false := by
  have hp : p ≤ 10 := by
    by_contra hgt
    simp [h.armed (by omega)] at harmed
  refine Bool.eq_false_iff.2 fun hst => ?_
  obtain ⟨hcontra, -⟩ := h.running hst (by omega)
  simp [hcontra] at harmed

/-- A setup row is skipped where the setup stands. -/
theorem ArmAt.next_of_skip (h : ArmAt p tk tm c clk) (harmed : tk.armed = true) (hp : p ≤ 10) :
    ArmAt (p + 1) tk tm c clk :=
  armAt_of_armed harmed (h.setup harmed) (fun _ => by omega) (fun _ => by omega) (fun _ => by omega)
    fun hst _ => h.running hst (by omega)

/-- After a wait nothing is asked that was not asked at it. -/
theorem ArmAt.next_of_wait (h : ArmAt p tk tm c clk) (hp : p ∈ [3, 5, 7, 12, 15, 17, 19, 21]) :
    ArmAt (p + 1) tk tm c clk := by
  simp only [List.mem_cons, List.not_mem_nil, or_false] at hp
  exact ⟨h.setup, fun _ => h.clock (by omega), fun _ => h.mode (by omega), fun _ => h.intEn (by omega),
    fun _ => h.prio (by omega), fun _ => h.icEnable (by omega), fun _ => h.armed (by omega),
    fun _ => h.prescaler (by omega), fun _ => h.top (by omega), fun _ => h.enable (by omega),
    fun hst _ => h.running hst (by omega)⟩

/-- A write of the setup, row by row: what the next position asks stands from the position before or is the field just
written. -/
theorem ArmAt.next_of_setupWrite {f : SysFields} {w : FieldWrite} (h : ArmAt p tk tm c f.timerClk)
    (harmed : tk.armed = false) (hw : setupWrite p = some w) (b : Bool) :
    ArmAt (p + 1) tk { tm.store w with syncBusy := b } (c.store w) (f.store w).timerClk := by
  have hst := h.not_started harmed
  have hp : p + 1 ≤ 10 := Nat.succ_le_succ (setupWrite_index hw)
  unfold setupWrite at hw
  split at hw <;> cases hw
  · exact armAt_of_unarmed harmed hst hp (fun _ => rfl) (fun _ => h.mode (by omega)) (fun _ => h.intEn (by omega))
      (fun _ => h.prio (by omega)) (fun _ => h.icEnable (by omega))
  · exact armAt_of_unarmed harmed hst hp (fun _ => h.clock (by omega)) (fun _ => h.mode (by omega))
      (fun _ => h.intEn (by omega)) (fun _ => h.prio (by omega)) (fun _ => h.icEnable (by omega))
  · exact armAt_of_unarmed harmed hst hp (fun _ => h.clock (by omega)) (fun _ => rfl) (fun _ => h.intEn (by omega))
      (fun _ => h.prio (by omega)) (fun _ => h.icEnable (by omega))
  · exact armAt_of_unarmed harmed hst hp (fun _ => h.clock (by omega)) (fun _ => h.mode (by omega)) (fun _ => rfl)
      (fun _ => h.prio (by omega)) (fun _ => h.icEnable (by omega))
  · exact armAt_of_unarmed harmed hst hp (fun _ => h.clock (by omega)) (fun _ => h.mode (by omega))
      (fun _ => h.intEn (by omega)) (fun _ => rfl) (fun _ => h.icEnable (by omega))
  · exact armAt_of_unarmed harmed hst hp (fun _ => h.clock (by omega)) (fun _ => h.mode (by omega))
      (fun _ => h.intEn (by omega)) (fun _ => h.prio (by omega)) (fun _ => rfl)

/-- Row s7 comes when the whole setup has been written. -/
theorem ArmAt.next_of_arm (h : ArmAt 10 tk tm c clk) (harmed : tk.armed = false) :
    ArmAt 11 { tk with armed := true } tm c clk := by
  have hstarted := h.not_started harmed
  have hsetup : SetupDone tm c clk := ⟨h.clock (by decide), h.mode (by decide), h.intEn (by decide),
    h.prio (by decide), h.icEnable (by decide)⟩
  exact armAt_of_armed rfl hsetup (fun _ => by omega) (fun _ => by omega) (fun _ => by omega)
    fun hst _ => by simp [hstarted] at hst

/-- Row a2 comes before DIVSHIFT and TOP are programmed. -/
theorem ArmAt.next_of_period (h : ArmAt 13 tk tm c clk) (p : Word) (shift : BitVec 4) (top : BitVec 24) :
    ArmAt 14 { tk with periodMs := p, divShift := shift, top := top } tm c clk :=
  have harmed : tk.armed = true := h.armed (by decide)
  armAt_of_armed harmed (h.setup harmed) (fun _ => by omega) (fun _ => by omega) (fun _ => by omega)
    (fun _ _ => by omega)

/-- A write of the arm sequence, row by row: it does not reach the setup, and what else the next position asks stands
from the position before or is the field just written. -/
theorem ArmAt.next_of_armWrite {f : SysFields} {w : FieldWrite} (h : ArmAt p tk tm c f.timerClk)
    (hw : armWrite tk p = some w) (b : Bool) :
    ArmAt (p + 1) tk { tm.store w with syncBusy := b } (c.store w) (f.store w).timerClk := by
  have harmed : tk.armed = true := h.armed (armWrite_index hw)
  have hsetup := h.setup harmed
  unfold armWrite at hw
  split at hw <;> cases hw
  · exact armAt_of_armed harmed hsetup (fun _ => by omega) (fun _ => by omega) (fun _ => by omega)
      (fun _ _ => by omega)
  · exact armAt_of_armed harmed hsetup (fun _ => by omega) (fun _ => by omega) (fun _ => by omega)
      (fun _ _ => by omega)
  · exact armAt_of_armed harmed hsetup (fun _ => rfl) (fun _ => by omega) (fun _ => by omega) (fun _ _ => by omega)
  · exact armAt_of_armed harmed hsetup (fun _ => h.prescaler (by omega)) (fun _ => rfl) (fun _ => by omega)
      (fun _ _ => by omega)
  · exact armAt_of_armed harmed hsetup (fun _ => h.prescaler (by omega)) (fun _ => h.top (by omega)) (fun _ => rfl)
      (fun _ _ => by omega)

/-- Row u3 comes when the timer runs with DIVSHIFT and TOP. -/
theorem ArmAt.outside_of_last (h : ArmAt 22 tk tm c clk) : ArmAt 0 { tk with started := true } tm c clk :=
  armAt_outside (Nat.zero_le 1) h.setup fun _ =>
    ⟨h.armed (by decide), h.enable (by decide), h.prescaler (by decide), h.top (by decide)⟩

end

theorem runPos_of_idle {s : State} (h : s.seq.busy = false) : runPos s = 0 := by simp [runPos, h]

theorem runPos_of_cur_ne {s : State} (h : s.seq.cur ≠ .tickrun) : runPos s = 0 := by simp [runPos, h]

theorem runPos_of_tickrun {s : State} (hb : s.seq.busy = true) (hcur : s.seq.cur = .tickrun) :
    runPos s = s.seq.step := by simp [runPos, hb, hcur]

theorem runPos_accept_le (i : Instr) (s : State) : runPos (s.accept i) ≤ 1 := by
  unfold runPos
  split
  · exact le_rfl
  · exact Nat.zero_le 1

/-- A write leaves the timer's fields as stored, but for the busy bit. -/
theorem pwrite_timer_store (w : FieldWrite) (s : State) :
    ∃ b, (s.pwrite w).timer = { s.timer.store w with syncBusy := b } := by
  cases w <;> exact ⟨_, rfl⟩

/-! ### The armed timer -/

/-- Every turn of TICKRUN leaves what the next position asks. -/
theorem armInv_of_tickrunTurn {s t : State} (h : ArmInv s) (hb : s.seq.busy = true) (hcur : s.seq.cur = .tickrun)
    (hturn : TickrunTurn s t) : ArmInv t := by
  have hat := (armInv_iff s).1 h
  rw [runPos_of_tickrun hb hcur] at hat
  have next {u : State} (hseq : u.seq = s.seq)
      (hu : ArmAt (s.seq.step + 1) u.tick u.timer u.ic u.sys.timerClk) : ArmInv u.advance := by
    have hpos : runPos u.advance = s.seq.step + 1 := by simp [runPos, hseq, hb, hcur]
    rw [armInv_iff, hpos]
    exact hu
  cases hturn with
  | skip harmed hstep => exact next rfl (hat.next_of_skip harmed hstep)
  | wait hstep => exact next rfl (hat.next_of_wait hstep)
  | @write w hw =>
    obtain ⟨b, htimer⟩ := pwrite_timer_store w s
    refine next (by simp) ?_
    rw [htimer, State.pwrite_tick, State.pwrite_ic, State.pwrite_sys]
    rcases hw with ⟨harmed, hw⟩ | hw
    · exact hat.next_of_setupWrite harmed hw b
    · exact hat.next_of_armWrite hw b
  | arm hstep harmed =>
    rw [hstep] at hat next
    exact next rfl (hat.next_of_arm harmed)
  | period hstep =>
    rw [hstep] at hat next
    exact next rfl (hat.next_of_period _ _ _)
  | last hstep =>
    rw [hstep] at hat
    exact (armInv_iff _).2 hat.outside_of_last
  | held => exact h

theorem armInv_keptByAgents : KeptByAgents ArmInv where
  host _ _ _ h := h
  exec := by
    intro s t hb hexec h
    by_cases hi : s.current = .tickrun
    · rw [hi] at hexec
      exact armInv_of_tickrunTurn h hb (cur_of_current hi) (tickrunTurn_of_exec hexec)
    · obtain ⟨htick, -, htimer, hic, hclk, hcur⟩ := exec_frame_of_ne_tickrun hexec hi
      have hpos : runPos t = runPos s := by
        rw [runPos_of_cur_ne (cur_ne_tickrun hi), runPos_of_cur_ne (hcur ▸ cur_ne_tickrun hi)]
      rw [armInv_iff, hpos, htick, htimer, hic, hclk]
      exact (armInv_iff s).1 h
  accept := by
    intro s i hb h
    have hat := (armInv_iff s).1 h
    rw [runPos_of_idle hb] at hat
    exact (armInv_iff _).2 (armAt_outside (runPos_accept_le i s) hat.setup fun hst => hat.running hst (by decide))
  handler := by
    intro s _ h
    unfold State.handlerStep
    cases s.irq.istep with
    | clearPending => exact h
    | clearMatch =>
      simp only [pwrite_timer .matchClear s rfl]
      exact h
    | syncMatch => cases s.timer.syncBusy <;> exact h
    | setTick => exact h
  enter _ h := h
  env := by
    intro s e h
    cases e with
    | syncClear p => cases p <;> exact h
    | adcReset d => simp only [State.envStep]; split <;> exact h
    | adcConv v => simp only [State.envStep]; split <;> exact h
    | timerTick =>
      simp only [State.envStep, State.divTick]
      repeat' split
      all_goals exact h
  reset s := (armInv_iff _).2 <|
    armAt_outside ((runPos_of_idle rfl).trans_le (Nat.zero_le 1)) (fun h => by cases h) fun h => by cases h

/-- Settles O55: TICKRUN's rows establish the setup and the running timer one field at a time, and no other turn but a
reset reaches these fields. -/
theorem armedTimerMatchesTheState : Obligations.ArmedTimerMatchesTheState := fun _ _ => armInv_keptByAgents.step

end Sys2Proof.Machine


/-! `computePeriod` in closed form and TICKCOMP, the divided ticks to a match, the take of a handled tick, and what one
turn of TICKRUN leaves unchanged (42_tick.md rules R181 to R195). -/

namespace Sys2Proof.Machine

open Sys2Proof.Safety Sys2Proof.Statements

/-! ### `computePeriod` -/

/-- Settles O34. -/
theorem cyclesAreTheExactProduct : Obligations.CyclesAreTheExactProduct := cyclesOf_toNat

/-- The shift and the top of `computePeriod` for the cycle count `c`: the least shift of 0..10 below the bound with the
shifted cycles, or the saturated pair (42_tick.md rules R182, R183). -/
inductive PeriodOf (c : Nat) : Nat → Nat → Prop
  | least {k : Nat} (hk : k ≤ 10) (hfits : c >>> k < 0xFFFFFF) (hleast : ∀ j, j < k → 0xFFFFFF ≤ c >>> j) :
      PeriodOf c k (c >>> k)
  | saturated (hnone : ∀ k, k ≤ 10 → 0xFFFFFF ≤ c >>> k) : PeriodOf c 10 0xFFFFFF

theorem shiftFits_eq_false_iff (cpms p : Word) (k : Nat) :
    shiftFits (cyclesOf cpms p) k = false ↔ 0xFFFFFF ≤ (cpms.toNat * p.toNat) >>> k := by
  simp [shiftFits, Config.counterMax, BitVec.toNat_ushiftRight, cyclesOf_toNat]

/-- Below the shift the search finds no shift fits (42_tick.md rule R182). -/
theorem leastShift_least {cpms p : Word} {k : Nat} (h : leastShift (cyclesOf cpms p) = some k) (j : Nat) (hj : j < k) :
    0xFFFFFF ≤ (cpms.toNat * p.toNat) >>> j := by
  obtain ⟨-, -, hleast⟩ := List.find?_range_eq_some.1 h
  exact (shiftFits_eq_false_iff cpms p j).1 (by simpa using hleast j hj)

/-- The search finds nothing where no shift fits (42_tick.md rule R183). -/
theorem leastShift_eq_none_iff (cpms p : Word) :
    leastShift (cyclesOf cpms p) = none ↔ ∀ k, k ≤ 10 → 0xFFFFFF ≤ (cpms.toNat * p.toNat) >>> k := by
  simp only [leastShift, List.find?_eq_none, List.mem_range, Bool.not_eq_true, shiftFits_eq_false_iff]
  exact forall_congr' fun k => imp_congr_left Nat.lt_succ_iff

theorem computePeriod_saturates {cpms p : Word} (h : ∀ k, k ≤ 10 → 0xFFFFFF ≤ (cpms.toNat * p.toNat) >>> k) :
    computePeriod cpms p = (10, 0xFFFFFF) :=
  computePeriod_of_none ((leastShift_eq_none_iff cpms p).2 h)

/-- `computePeriod` in closed form (42_tick.md rule R184). -/
theorem computePeriod_periodOf (cpms p : Word) :
    PeriodOf (cpms.toNat * p.toNat) (computePeriod cpms p).1.toNat (computePeriod cpms p).2.toNat := by
  cases hs : leastShift (cyclesOf cpms p) with
  | none =>
    rw [computePeriod_of_none hs]
    exact .saturated ((leastShift_eq_none_iff cpms p).1 hs)
  | some k =>
    obtain ⟨hk, hfits⟩ := leastShift_some hs
    rw [BitVec.toNat_ushiftRight, cyclesOf_toNat] at hfits
    have hshift : (computePeriod cpms p).1.toNat = k := by
      rw [computePeriod_of_some hs]
      exact Nat.mod_eq_of_lt (by omega)
    have htop : (computePeriod cpms p).2.toNat = (cpms.toNat * p.toNat) >>> k := by
      rw [computePeriod_of_some hs, BitVec.toNat_setWidth, BitVec.toNat_ushiftRight, cyclesOf_toNat]
      exact Nat.mod_eq_of_lt (hfits.trans (by decide))
    rw [hshift, htop]
    exact .least hk hfits (leastShift_least hs)

/-- A shifted count is non-increasing in the shift and non-decreasing in the count. -/
theorem shiftRight_le_shiftRight {c d j k : Nat} (hcd : c ≤ d) (hjk : j ≤ k) : c >>> k ≤ d >>> j := by
  rw [Nat.shiftRight_eq_div_pow, Nat.shiftRight_eq_div_pow]
  exact Nat.div_le_div hcd (Nat.pow_le_pow_right (by decide) hjk) (by positivity)

/-- No shift of 0..10 fits from 0xFFFFFF * 1024 cycles on (42_tick.md rule R184). -/
theorem saturates_iff (c : Nat) : 0x3FFFFFC00 ≤ c ↔ ∀ k, k ≤ 10 → 0xFFFFFF ≤ c >>> k := by
  have hten : 0x3FFFFFC00 ≤ c ↔ 0xFFFFFF ≤ c >>> 10 := by
    rw [Nat.shiftRight_eq_div_pow]
    omega
  rw [hten]
  exact ⟨fun h k hk => h.trans (shiftRight_le_shiftRight le_rfl hk), fun h => h 10 le_rfl⟩

/-- The pair is determined by the least shift that fits. -/
theorem PeriodOf.eq_of_least {c s t k : Nat} (h : PeriodOf c s t) (hk : k ≤ 10) (hfits : c >>> k < 0xFFFFFF)
    (hleast : ∀ j, j < k → 0xFFFFFF ≤ c >>> j) : s = k ∧ t = c >>> k := by
  cases h with
  | least hs hsfits hsleast =>
    obtain rfl : s = k := by
      rcases Nat.lt_trichotomy s k with hlt | heq | hgt
      · exact absurd (hleast s hlt) (Nat.not_le.2 hsfits)
      · exact heq
      · exact absurd (hsleast k hgt) (Nat.not_le.2 hfits)
    exact ⟨rfl, rfl⟩
  | saturated hnone => exact absurd (hnone k hk) (Nat.not_le.2 hfits)

/-- Settles O35, from the closed form of `computePeriod` and of the saturation bound. -/
theorem computePeriodTakesTheLeastShift : Obligations.ComputePeriodTakesTheLeastShift := by
  intro cpms p
  refine ⟨fun k hk hfits hleast => ?_, computePeriod_saturates, saturates_iff _⟩
  obtain ⟨hshift, htop⟩ := (computePeriod_periodOf cpms p).eq_of_least hk hfits hleast
  exact ⟨hshift, htop, htop.trans (Nat.shiftRight_eq_div_pow _ _)⟩

section
variable {c d s t s' t' : Nat}

/-- R186 (i): the ranges, and the largest top only where no shift fits. -/
theorem PeriodOf.range (h : PeriodOf c s t) : s ≤ 10 ∧ t ≤ 0xFFFFFF ∧ (t = 0xFFFFFF → 0x3FFFFFC00 ≤ c) := by
  cases h with
  | least hk hfits _ => exact ⟨hk, hfits.le, fun ht => by omega⟩
  | saturated hnone => exact ⟨le_rfl, le_rfl, fun _ => (saturates_iff c).2 hnone⟩

/-- Below the saturation bound the shift is the least that fits. -/
theorem PeriodOf.unsaturated (h : PeriodOf c s t) (hc : c < 0x3FFFFFC00) :
    t = c >>> s ∧ t ≤ 0xFFFFFE ∧ ∀ j, j < s → 0xFFFFFF ≤ c >>> j := by
  cases h with
  | least _ hfits hleast => exact ⟨rfl, Nat.le_of_lt_succ hfits, hleast⟩
  | saturated hnone => exact absurd ((saturates_iff c).2 hnone) (Nat.not_le.2 hc)

/-- R186 (iv): the shift before gave at least 0xFFFFFF, so this one gives at least half of it. -/
theorem half_le_of_least {k : Nat} (hleast : ∀ j, j < k → 0xFFFFFF ≤ c >>> j) (hk : 1 ≤ k) : 0x7FFFFF ≤ c >>> k := by
  obtain ⟨m, rfl⟩ := Nat.exists_eq_add_of_le' hk
  have hbefore := hleast m (Nat.lt_succ_self m)
  rw [Nat.shiftRight_succ]
  omega

/-- R186 (iii): with more cycles the shift does not fall. -/
theorem PeriodOf.shift_mono (hc : PeriodOf c s t) (hd : PeriodOf d s' t') (hcd : c ≤ d) : s ≤ s' := by
  cases hd with
  | saturated _ =>
    obtain ⟨hs, -⟩ := hc.range
    exact hs
  | least hk hfits _ =>
    have hfits' : c >>> s' < 0xFFFFFF := (shiftRight_le_shiftRight hcd le_rfl).trans_lt hfits
    cases hc with
    | saturated hnone => exact absurd (hnone s' hk) (Nat.not_le.2 hfits')
    | least _ _ hleast =>
      by_contra hlt
      exact absurd (hleast s' (by omega)) (Nat.not_le.2 hfits')

/-- R186 (iii): with more cycles `top * 2^shift` does not fall. -/
theorem PeriodOf.scaled_mono (hc : PeriodOf c s t) (hd : PeriodOf d s' t') (hcd : c ≤ d) :
    t * 2 ^ s ≤ t' * 2 ^ s' := by
  have hss : s ≤ s' := hc.shift_mono hd hcd
  cases hd with
  | saturated _ =>
    obtain ⟨-, ht, -⟩ := hc.range
    exact Nat.mul_le_mul ht (Nat.pow_le_pow_right (by decide) hss)
  | least hk hfits hleast =>
    cases hc with
    | saturated hnone =>
      have := (hnone s' hk).trans (shiftRight_le_shiftRight hcd le_rfl)
      omega
    | least _ hcfits _ =>
      rcases hss.eq_or_lt with rfl | hlt
      · exact Nat.mul_le_mul_right _ (shiftRight_le_shiftRight hcd le_rfl)
      · obtain ⟨m, rfl⟩ := Nat.exists_eq_add_of_le' (Nat.one_le_of_lt hlt)
        calc c >>> s * 2 ^ s ≤ 0xFFFFFE * 2 ^ m :=
              Nat.mul_le_mul (Nat.le_of_lt_succ hcfits) (Nat.pow_le_pow_right (by decide) (Nat.le_of_lt_succ hlt))
          _ = 0x7FFFFF * 2 ^ (m + 1) := by rw [Nat.pow_succ]; omega
          _ ≤ d >>> (m + 1) * 2 ^ (m + 1) := Nat.mul_le_mul_right _ (half_le_of_least hleast (by omega))

end

/-- Settles O36, each property from the closed form of `computePeriod`. -/
theorem computePeriodProperties : Obligations.ComputePeriodProperties := by
  intro cpms p q
  have hp := computePeriod_periodOf cpms p
  have hq := computePeriod_periodOf cpms q
  obtain ⟨hshift, htop, hsat⟩ := hp.range
  refine ⟨⟨hshift, htop, fun h => hsat (congrArg BitVec.toNat h)⟩,
    fun h => computePeriod_saturates ((saturates_iff _).1 h), fun h => ?_, fun hle => ?_⟩
  · obtain ⟨heq, hbelow, hleast⟩ := hp.unsaturated h
    exact ⟨heq, hbelow, hleast, fun hone => heq ▸ half_le_of_least hleast hone⟩
  · have hcycles := Nat.mul_le_mul_left cpms.toNat hle
    exact ⟨hp.shift_mono hq hcycles, hp.scaled_mono hq hcycles⟩

/-- Settles O37: TICKCOMP's one row is its last. -/
theorem tickcompReturnsShiftAndTop : Obligations.TickcompReturnsShiftAndTop := fun s hs =>
  ⟨_, completesAt_last .tickcomp s hs, rfl, rfl, rfl, BitVec.toNat_setWidth_of_le (by decide),
    BitVec.toNat_setWidth_of_le (by decide), rfl, rfl⟩

/-! ### Divided ticks -/

/-- A divided tick of a running timer below TOP counts (60_exceptions.md rule R232). -/
theorem envStep_timerTick_of_ne {s : State} (hruns : s.timerRuns = true) (hne : s.timer.count ≠ s.timer.top) :
    s.envStep .timerTick = { s with timer := { s.timer with count := s.timer.count + 1 } } :=
  (if_pos hruns).trans (if_neg hne)

/-- A divided tick of a running timer at TOP is the match (60_exceptions.md rule R232). -/
theorem envStep_timerTick_of_eq {s : State} (hruns : s.timerRuns = true) (heq : s.timer.count = s.timer.top) :
    s.envStep .timerTick = { s with
      timer := { s.timer with count := 0, matchFlag := true }
      ic := { s.ic with pending := s.ic.pending || s.timer.intEn } } :=
  (if_pos hruns).trans (if_pos heq)

/-- `s` with the count `n` in the timer. -/
def State.withCount (n : Nat) (s : State) : State := { s with timer := { s.timer with count := BitVec.ofNat 24 n } }

/-- Up to TOP ticks only count, by induction on them. -/
theorem ticks_eq_withCount {s : State} (hruns : s.timerRuns = true) (hzero : s.timer.count = 0) (n : Nat)
    (hn : n ≤ s.timer.top.toNat) : ticks n s = s.withCount n := by
  induction n with
  | zero =>
    have hsame : s.withCount 0 = s := by
      have hcount : BitVec.ofNat 24 0 = s.timer.count := hzero.symm
      rw [State.withCount, hcount]
    exact hsame.symm
  | succ n ih =>
    have hcount : (s.withCount n).timer.count.toNat = n :=
      Nat.mod_eq_of_lt ((Nat.lt_of_succ_le hn).trans s.timer.top.isLt)
    have hne : (s.withCount n).timer.count ≠ (s.withCount n).timer.top := fun h => by
      rw [h] at hcount
      exact absurd hn (Nat.not_le.2 (Nat.lt_succ_of_le hcount.le))
    rw [ticks, Function.iterate_succ_apply', ← ticks, ih (Nat.le_of_succ_le hn),
      envStep_timerTick_of_ne (s := s.withCount n) hruns hne]
    simp [State.withCount, BitVec.ofNat_add]

/-- Settles O17: the ticks to TOP, and the match after them. -/
theorem matchComesAfterTopPlusOneTicks : Obligations.MatchComesAfterTopPlusOneTicks := by
  intro s hruns hzero
  have hcount := ticks_eq_withCount hruns hzero
  refine ⟨hcount, ?_⟩
  have htop : (s.withCount s.timer.top.toNat).timer.count = s.timer.top := by simp [State.withCount]
  rw [ticks, Function.iterate_succ_apply', ← ticks, hcount _ le_rfl,
    envStep_timerTick_of_eq (s := s.withCount s.timer.top.toNat) hruns htop]
  rfl

/-! ### Taking a tick -/

/-- From an idle state a TICKTAKE called by the host and run at once returns the flag in RES0 and clears it. -/
theorem runs_ticktake {s : State} {ts : List Turn} (hidle : idle s) (hs : s.world.sched = call 0x32 :: .block :: ts) :
    ∃ t, Runs 2 s t ∧ idle t ∧ t.world.sched = ts ∧ t.regs.res0 = HostReg.holding (wordOfBool s.tickPend)
      ∧ t.tickPend = false := by
  have hcall := runs_call (i := .ticktake) hidle hs rfl
  have hcommand := inCommand_accept (i := .ticktake) rfl hidle ts
  have htake : ((s.setSched ts).accept .ticktake).blockTurn = _ :=
    hcommand.blockTurn_eq.trans (completesAt_last .ticktake _ rfl)
  obtain ⟨hcan, -⟩ := hidle
  exact ⟨_, hcall.trans (runs_of_turn rfl htake), ⟨hcan, rfl⟩, rfl, rfl, rfl⟩

/-- The last step of a handler run sets the flag and leaves a host that can step (60_exceptions.md rules R226, R240). -/
theorem runs_setTick {s : State} {ts : List Turn} (hactive : s.irq.active = true) (hset : s.irq.istep = .setTick)
    (hb : s.seq.busy = false) (hs : s.world.sched = .block :: ts) :
    ∃ t, Runs 1 s t ∧ idle t ∧ t.world.sched = ts ∧ t.tickPend = true := by
  have hend : (s.setSched ts).takeTurn .block = .next ({ s.setSched ts with tickPend := true }).leaveHandler := by
    simp [State.takeTurn, State.blockTurn, hactive, State.handlerStep, hset]
  exact ⟨_, runs_of_turn hs hend, ⟨rfl, hb⟩, rfl, rfl⟩

/-- Settles O41: h3 sets the flag whatever it was, the first take finds it set and the second clear. -/
theorem handledTickIsTakenOnce : Obligations.HandledTickIsTakenOnce := by
  intro s rest hactive hset hb hs
  obtain ⟨t, hhandled, hidle, hsched, hpend⟩ := runs_setTick hactive hset hb hs
  obtain ⟨t₁, hfirst, hidle₁, hsched₁, hres₁, hclear₁⟩ := runs_ticktake hidle hsched
  obtain ⟨t₂, hsecond, -, hsched₂, hres₂, hclear₂⟩ := runs_ticktake hidle₁ hsched₁
  rw [hpend] at hres₁
  rw [hclear₁] at hres₂
  exact ⟨⟨t₁, (hhandled.trans hfirst).run_eq, hres₁, hclear₁⟩,
    ⟨t₂, ((hhandled.trans hfirst).trans hsecond).run_eq, hres₂, hclear₂, hsched₂⟩⟩

/-! ### The frame of TICKRUN -/

/-- What one turn of TICKRUN from `s` to `t` leaves: everything but TickTimerState, the timer's configuration, count and
busy bit, the controller's enable and priority, the timer's clock, RES0, BUSY, STEP, T0 and the counter of draws; before
the last row the registers and T0 too; where ARMED = 1 the setup too. -/
structure TickrunLeaves (s t : State) : Prop where
  outside : t.adc = s.adc ∧ t.tickPend = s.tickPend ∧ t.cmdErr = s.cmdErr ∧ t.calErr = s.calErr ∧ t.irq = s.irq
  regs : t.regs.arg0 = s.regs.arg0 ∧ t.regs.res1 = s.regs.res1 ∧ t.seq.t1 = s.seq.t1
  peripherals : t.timer.matchFlag = s.timer.matchFlag ∧ t.ic.pending = s.ic.pending
    ∧ t.sys.adcBusClk = s.sys.adcBusClk ∧ t.sys.adcSampClk = s.sys.adcSampClk ∧ t.sys.tsensEn = s.sys.tsensEn
  latches : sameLatches s t
  host : sameHost s t
  result : s.seq.step ≠ 22 → t.regs = s.regs ∧ t.seq.t0 = s.seq.t0
  setup : s.tick.armed = true → t.timer.mode = s.timer.mode ∧ t.timer.intEn = s.timer.intEn ∧ t.ic = s.ic
    ∧ t.sys = s.sys

/-- A turn that reaches TickTimerState, BUSY, STEP and, at the last row alone, RES0 and T0. -/
theorem tickrunLeaves_of_seq {s : State} {tk : TickTimer} {r : HostReg} {b : Bool} {k : Nat} {v : Word}
    (hresult : s.seq.step ≠ 22 → r = s.regs.res0 ∧ v = s.seq.t0) :
    TickrunLeaves s { s with tick := tk, regs := { s.regs with res0 := r },
                             seq := { s.seq with busy := b, step := k, t0 := v } } where
  outside := ⟨rfl, rfl, rfl, rfl, rfl⟩
  regs := ⟨rfl, rfl, rfl⟩
  peripherals := ⟨rfl, rfl, rfl, rfl, rfl⟩
  latches := ⟨rfl, rfl, rfl, rfl⟩
  host := ⟨rfl, rfl, rfl⟩
  result hne := by
    obtain ⟨hr, hv⟩ := hresult hne
    exact ⟨by rw [hr], hv⟩
  setup _ := ⟨rfl, rfl, rfl, rfl⟩

/-- A write to a timer field other than MATCHFLAG, to the setup's only where ARMED = 0. -/
theorem tickrunLeaves_of_timerWrite {s : State} {w : FieldWrite} (hw : w.periph = some .timer)
    (hmatch : ∀ tm : Timer, (tm.store w).matchFlag = tm.matchFlag)
    (hsetup : s.tick.armed = true → ∀ tm : Timer, (tm.store w).mode = tm.mode ∧ (tm.store w).intEn = tm.intEn) :
    TickrunLeaves s (s.pwrite w).advance := by
  rw [pwrite_timer w s hw]
  exact ⟨⟨rfl, rfl, rfl, rfl, rfl⟩, ⟨rfl, rfl, rfl⟩, ⟨hmatch s.timer, rfl, rfl, rfl, rfl⟩, ⟨rfl, rfl, rfl, rfl⟩,
    ⟨rfl, rfl, rfl⟩, fun _ => ⟨rfl, rfl⟩, fun ha => ⟨(hsetup ha s.timer).1, (hsetup ha s.timer).2, rfl, rfl⟩⟩

/-- A write of the setup to the controller or the timer's clock, made only where ARMED = 0. -/
theorem tickrunLeaves_of_enables {s : State} {e b : Bool} {p : Prio} (harmed : s.tick.armed = false) :
    TickrunLeaves s
      { s with ic := { s.ic with enable := e, prio := p }, sys := { s.sys with timerClk := b } }.advance where
  outside := ⟨rfl, rfl, rfl, rfl, rfl⟩
  regs := ⟨rfl, rfl, rfl⟩
  peripherals := ⟨rfl, rfl, rfl, rfl, rfl⟩
  latches := ⟨rfl, rfl, rfl, rfl⟩
  host := ⟨rfl, rfl, rfl⟩
  result _ := ⟨rfl, rfl⟩
  setup ha := by simp [harmed] at ha

theorem tickrunLeaves_of_setupWrite {s : State} {k : Nat} {w : FieldWrite} (harmed : s.tick.armed = false)
    (hw : setupWrite k = some w) : TickrunLeaves s (s.pwrite w).advance := by
  have hnot {P : Prop} (ha : s.tick.armed = true) : P := by simp [harmed] at ha
  unfold setupWrite at hw
  split at hw <;> cases hw
  · exact tickrunLeaves_of_enables harmed
  · exact tickrunLeaves_of_timerWrite rfl (fun _ => rfl) hnot
  · exact tickrunLeaves_of_timerWrite rfl (fun _ => rfl) hnot
  · exact tickrunLeaves_of_timerWrite rfl (fun _ => rfl) hnot
  · exact tickrunLeaves_of_enables harmed
  · exact tickrunLeaves_of_enables harmed

theorem tickrunLeaves_of_armWrite {s : State} {tk : TickTimer} {k : Nat} {w : FieldWrite}
    (hw : armWrite tk k = some w) : TickrunLeaves s (s.pwrite w).advance := by
  unfold armWrite at hw
  split at hw <;> cases hw <;>
    exact tickrunLeaves_of_timerWrite rfl (fun _ => rfl) fun _ _ => ⟨rfl, rfl⟩

theorem TickrunTurn.leaves {s t : State} (h : TickrunTurn s t) : TickrunLeaves s t := by
  cases h with
  | write hw =>
    rcases hw with ⟨harmed, hw⟩ | hw
    · exact tickrunLeaves_of_setupWrite harmed hw
    · exact tickrunLeaves_of_armWrite hw
  | last hstep => exact tickrunLeaves_of_seq fun hne => absurd hstep hne
  | _ => exact tickrunLeaves_of_seq fun _ => ⟨rfl, rfl⟩

/-- Settles O47: the frame of one turn, and that no command reaches the memory. -/
theorem tickrunFrame : Obligations.TickrunFrame := by
  intro s t hexec
  obtain ⟨⟨hadc, hpend, hcmd, hcal, hirq⟩, ⟨harg, hres1, ht1⟩, ⟨hmatch, hpending, hbus, hsamp, hsensor⟩, hlatches,
    hhost, hresult, hsetup⟩ := (tickrunTurn_of_exec hexec).leaves
  exact ⟨hadc, hpend, hcmd, hcal, hirq, harg, hres1, hmatch, hpending, hbus, hsamp, hsensor, ht1, hlatches, hhost,
    fun a => by rw [exec_mem hexec], hresult, hsetup⟩

end Sys2Proof.Machine


/-! The interrupt and the faults (60_exceptions.md): one divided tick of the timer, the entry of a handler run and its
steps, and the one cause of CALERR. -/

namespace Sys2Proof.Machine

/-! ### One divided tick -/

theorem timerRuns_iff (s : State) :
    s.timerRuns = true ↔ s.timer.enable = true ∧ s.sys.timerClk = true ∧ s.timer.mode = .countOnMatch := by
  simp [State.timerRuns, and_assoc]

/-- A timer that does not run takes no divided tick (60_exceptions.md rule R232). -/
theorem envStep_timerTick_of_not_runs {s : State} (h : ¬ s.timerRuns = true) : s.envStep .timerTick = s := if_neg h

/-- The counter's sum wraps at its width. -/
theorem count_add_one (c : BitVec 24) : c + 1 = BitVec.ofNat 24 ((c.toNat + 1) % 2 ^ 24) :=
  BitVec.eq_of_toNat_eq (by simp)

/-- Settles O16: the tick of a running timer at TOP and elsewhere, and no tick of one that does not run. -/
theorem dividedTickCountsOrMatches : Obligations.DividedTickCountsOrMatches := by
  refine fun s => ⟨fun hon hclk hmode => ?_, fun hoff => ?_⟩
  · have hruns : s.timerRuns = true := (timerRuns_iff s).2 ⟨hon, hclk, hmode⟩
    refine ⟨fun htop => ?_, fun hne => ?_⟩
    · exact ⟨_, envStep_timerTick_of_eq hruns htop, rfl, rfl, Bool.or_comm _ _, rfl, rfl, rfl, rfl⟩
    · rw [envStep_timerTick_of_ne hruns hne, count_add_one]
  · refine envStep_timerTick_of_not_runs fun hruns => ?_
    obtain ⟨hon, hclk, hmode⟩ := (timerRuns_iff s).1 hruns
    rcases hoff with h | h | h
    · simp [hon] at h
    · simp [hclk] at h
    · exact h hmode

/-! ### The handler run -/

theorem canEnterHandler_iff (s : State) :
    s.canEnterHandler = true ↔ s.ic.pending = true ∧ s.ic.enable = true ∧ s.irq.active = false := by
  simp [State.canEnterHandler, and_assoc]

/-- Settles O42: the entry where the conditions of `canEnterHandler_iff` hold, and the turn passed over elsewhere. -/
theorem handlerEntryConditions : Obligations.HandlerEntryConditions := by
  intro s rest hs
  have hstep : step s = .next (s.setSched rest).tryEnterHandler := step_cons s _ _ hs
  refine ⟨fun hpending henable hidle => ?_, fun hor => ?_⟩
  · have hcan : (s.setSched rest).canEnterHandler = true := (canEnterHandler_iff _).2 ⟨hpending, henable, hidle⟩
    exact hstep.trans (congrArg _ (if_pos hcan))
  · refine hstep.trans (congrArg _ (if_neg fun hcan => ?_))
    obtain ⟨hpending, henable, hidle⟩ := (canEnterHandler_iff (s.setSched rest)).1 hcan
    rcases hor with h | h | h
    · exact absurd (hpending.symm.trans h) (by decide)
    · exact absurd (henable.symm.trans h) (by decide)
    · exact absurd (hidle.symm.trans h) (by decide)

section
variable {s : State}

/-- h1 (60_exceptions.md rule R226). -/
theorem handlerStep_of_clearPending (h : s.irq.istep = .clearPending) :
    s.handlerStep = (s.pwrite .pendingClear).setIstep .clearMatch := by
  simp only [State.handlerStep, h]

/-- The write of h2. -/
theorem handlerStep_of_clearMatch (h : s.irq.istep = .clearMatch) :
    s.handlerStep = (s.pwrite .matchClear).setIstep .syncMatch := by
  simp only [State.handlerStep, h]

/-- The wait of h2. -/
theorem handlerStep_of_syncMatch (h : s.irq.istep = .syncMatch) :
    s.handlerStep = if s.timer.syncBusy then s else s.setIstep .setTick := by
  simp only [State.handlerStep, h]

/-- h3. -/
theorem handlerStep_of_setTick (h : s.irq.istep = .setTick) :
    s.handlerStep = { s with tickPend := true }.leaveHandler := by
  simp only [State.handlerStep, h]

end

/-- Settles O43: h1 and the write of h2 by what a `PWrite` reaches, the wait of h2 by TIMER.SYNCBUSY, h3 by the return. -/
theorem handlerStepTable : Obligations.HandlerStepTable := by
  refine fun s => ⟨fun h => ?_, fun h => ?_, fun h hbusy => ?_, fun h hfree => ?_, handlerStep_of_setTick⟩
  · rw [handlerStep_of_clearPending h, pwrite_other _ s rfl]
    rfl
  · rw [handlerStep_of_clearMatch h, pwrite_timer _ s rfl]
    rfl
  · rw [handlerStep_of_syncMatch h, if_pos hbusy]
  · rw [handlerStep_of_syncMatch h, hfree]
    rfl

/-! ### CALERR -/

/-- The one cause of CALERR: TEMPCONV at v3 with equal unpacked codes (60_exceptions.md rule R222). -/
def RaisesCalErr (i : Instr) (s : State) : Prop :=
  i = .tempconv ∧ s.seq.step = 3 ∧ (unpack s.seq.t0 s.seq.t1).hotCode = (unpack s.seq.t0 s.seq.t1).roomCode

/-- The micro-step that raises CALERR completes with R222's effect. -/
theorem exec_of_raisesCalErr {i : Instr} {s : State} (h : RaisesCalErr i s) : exec i s = .next s.raiseCalErr.advance := by
  obtain ⟨rfl, hstep, hcodes⟩ := h
  rw [tempconv_converts s hstep, convertStep_of_eq hcodes]

/-- The last row of every command but TEMPCONV leaves CALERR. -/
theorem finalState_calErr_of_ne (i : Instr) (s : State) (hi : i ≠ .tempconv) : (finalState i s).calErr = s.calErr := by
  cases i with
  | tempconv => exact absurd rfl hi
  | _ => rfl

/-- SEQ leaves CALERR at every turn but the one of its cause. -/
theorem SeqTurn.calErr {i : Instr} {s t : State} (h : SeqTurn i s t) : t.calErr = s.calErr ∨ RaisesCalErr i s := by
  cases h with
  | last hstep =>
    by_cases hi : i = .tempconv
    · subst hi
      by_cases hcodes : (unpack s.seq.t0 s.seq.t1).hotCode = (unpack s.seq.t0 s.seq.t1).roomCode
      · exact .inr ⟨rfl, hstep, hcodes⟩
      · have hsame : (convertStep s).calErr = s.calErr := by rw [convertStep_of_ne hcodes]; rfl
        exact .inl hsame
    · exact .inl (finalState_calErr_of_ne i s hi)
  | arm _ _ _ => exact .inl rfl
  | period _ _ => exact .inl rfl
  | plain _ _ hplain hrun =>
    obtain ⟨_, _, _, _, _, _, _, rfl⟩ := MicroOp.run_eq_of_plain hplain hrun
    exact .inl rfl
  | held => exact .inl rfl

/-- Settles O29: every other turn leaves CALERR, and the one that raises it shows it in STATUS. -/
theorem calerrIsRaisedByEqualCodesAlone : Obligations.CalerrIsRaisedByEqualCodesAlone := by
  refine ⟨fun i s t hexec hclear => ⟨fun hset => ?_, fun hcause => ?_⟩, fun s hstep hcodes => ?_⟩
  · rcases (seqTurn_of_exec hexec).calErr with hsame | hcause
    · rw [hsame, hclear] at hset
      cases hset
    · exact hcause
  · rw [exec_of_raisesCalErr hcause] at hexec
    cases hexec
    rfl
  · obtain ⟨-, -, -, -, -, -, hbit, -⟩ := statusBitsAndItsRead s.raiseCalErr.advance
    exact ⟨_, exec_of_raisesCalErr ⟨rfl, hstep, hcodes⟩, rfl, hbit, rfl, rfl⟩

end Sys2Proof.Machine
